-- ==== Sys2Proof/Word.lean ====
section
/-! DEFINITION. The word types of the TPE: bytes, the register widths of spec/10_state.md and the 13-bit raw
temperature code of R21. -/

namespace Sys2Proof

/-- One byte of a buffer (R60: 8-bit bytes). -/
abbrev Byte := BitVec 8

/-- A byte string: an operand, a result, a command or a frame; lowest address first (R7). -/
abbrev Buffer := List Byte

/-- An unsigned 16-bit field. -/
abbrev U16 := BitVec 16

/-- An unsigned 32-bit register or field (sequence numbers, session ids, seconds). -/
abbrev U32 := BitVec 32

/-- The `now` operand (R44). -/
abbrev U64 := BitVec 64

/-- A two's complement 32-bit value; read it with `toInt` (R6). -/
abbrev S32 := BitVec 32

/-- A raw temperature code as stored on the wire (R21, R90). -/
abbrev RawCode := BitVec 13

end Sys2Proof
end

