-- ==== Sys2Proof/Syntax.lean ====
section
/-! DEFINITION. The operations of the TPE as data: operand and result records, the responses, and `Instr`, one constructor
per row of spec/opcode_table.json with the operand fields of R82. -/

namespace Sys2Proof

/-- Exactly eight like values, slot `i` holding sensor position `i + 1` (R21). -/
structure Octet (α : Type) where
  t0 : α
  t1 : α
  t2 : α
  t3 : α
  t4 : α
  t5 : α
  t6 : α
  t7 : α
deriving DecidableEq, Repr, Inhabited

/-- Eight raw codes as a command sends them, each a `u16` whose upper 3 bits the operation masks off (R82). -/
abbrev RawTemps := Octet U16

/-- A TemperatureSet: eight 13-bit raw codes (R21, R111). -/
abbrev TempSet := Octet RawCode

/-- Operating mode, in the order of R84: codes 0 to 3. -/
inductive OpMode where
  | normal
  | instantRead
  | reserved
  | error
deriving DecidableEq, Repr, Inhabited

/-- Prediction state as a PredictionInfo holds it (R35, R86): codes 0 to 2. Code 3 of an operand is IDLE. -/
inductive PredState where
  | idle
  | predicting
  | done
deriving DecidableEq, Repr, Inhabited

/-- Prediction mode (R86): codes 0 and 1. -/
inductive PredMode where
  | none
  | timeToRemoval
deriving DecidableEq, Repr, Inhabited

/-- The PredictionStatus operand of PUPD (R86). `state` keeps its 2-bit code, because code 3 is a legal operand that
the operation itself reads as IDLE. Temperatures are centi degrees C (R9). -/
structure PredictionStatus where
  state : BitVec 2
  mode : PredMode
  ptype : Byte
  setPoint : S32
  heatStart : S32
  predSecs : U32
  estCore : S32
deriving DecidableEq, Repr, Inhabited

/-- A PredictionInfo (R35). `secs` means nothing while `secsValid` is false (R6). -/
structure PredictionInfo where
  state : PredState
  mode : PredMode
  ptype : Byte
  setPoint : S32
  heatStart : S32
  estCore : S32
  secsValid : Bool
  secs : U32
  percent : BitVec 7
deriving DecidableEq, Repr, Inhabited

/-- The food-safe parameters on the engineering side, in centi (R123, R124). -/
structure FoodSafe where
  sel : U16
  thr : S32
  z : S32
  ref : S32
  d : S32
  lr : S32
deriving DecidableEq, Repr, Inhabited

/-! ### Records that operations return (R82, R91) -/

/-- The decoded ModeIdentity byte (R117). -/
structure ModeIdentity where
  id : BitVec 3
  color : BitVec 3
  mode : OpMode
deriving DecidableEq, Repr, Inhabited

/-- The decoded BatteryAndVirtualSensors byte (R119); `battery` true is LOW (R84). -/
structure BatterySensors where
  battery : Bool
  core : BitVec 3
  surface : BitVec 2
  ambient : BitVec 2
deriving DecidableEq, Repr, Inhabited

/-- An AdvertisingRecord (R126); an absent hop count is `hop_present = 0`. -/
structure AdvRecord where
  product : Byte
  serial : U32
  temps : TempSet
  modeId : ModeIdentity
  sensors : BatterySensors
  hop : Option Byte
deriving DecidableEq, Repr, Inhabited

/-- The body of an FPARSE record, by kind (R91). -/
inductive RecordBody where
  | log (seq : U32) (t : TempSet)
  | session (id : U32) (periodMs : U16)
  | ack
  | overTemp (flag : Bool)
deriving DecidableEq, Repr, Inhabited

/-- An FPARSE record (R91): the message type code, the success flag, the body. -/
structure Record where
  kind : Byte
  success : Bool
  body : RecordBody
deriving DecidableEq, Repr, Inhabited

/-- The results of an operation answered OK (R82). -/
inductive Results where
  /-- NOP, RST, DISC, LSESS, LFRAME: no result fields. -/
  | empty
  /-- TDEC. -/
  | temps (t : TempSet)
  /-- TENC, FSENC, FBUILD. -/
  | bytes (buf : Buffer)
  /-- MDEC. -/
  | modeIdentity (m : ModeIdentity)
  /-- BDEC. -/
  | sensors (b : BatterySensors)
  /-- HDEC. -/
  | hop (h : Byte)
  /-- FSDEC. -/
  | foodSafe (p : FoodSafe)
  /-- ADEC. -/
  | advert (a : AdvRecord)
  /-- FPARSE; the cursor is an index of the buffer, so at most its length (R22). -/
  | parsed (records : List Record) (cursor : Nat)
  /-- CRC16. -/
  | crc (c : U16)
  /-- LSTAT: `up_to_date`, and the bounds of the request when `req_emitted` is 1. Log 18. -/
  | status (upToDate : Bool) (request : Option (U32 × U32))
  /-- LMISS. -/
  | missing (seq : U32)
  /-- LUTD. -/
  | upToDate (b : Bool)
  /-- IRQRY. -/
  | accept (b : Bool)
  /-- IRACC. -/
  | accepted (b : Bool)
  /-- IRRD. -/
  | value (v : S32)
  /-- PUPD. -/
  | published (b : Bool)
  /-- PRD. -/
  | info (i : PredictionInfo)
  /-- PPCT. -/
  | percent (p : BitVec 7)
deriving DecidableEq, Repr, Inhabited

/-- A response on RSP (R83): status 0 OK with results, 1 ABSENT, 2 ILLEGAL; status 3 is never produced. -/
inductive Response where
  | ok (r : Results)
  | absent
  | illegal
deriving DecidableEq, Repr, Inhabited

/-! ### Operations -/

/-- The operations of R80: 25 host operations and the two internal events. -/
inductive Instr where
  /-- NOP, R270. -/
  | nop
  /-- RST, R271. -/
  | rst
  /-- DISC, R272. -/
  | disc
  /-- TDEC, R112. -/
  | tdec (buf : Buffer)
  /-- TENC, R113. -/
  | tenc (t : RawTemps)
  /-- MDEC, R117. -/
  | mdec (b : Byte)
  /-- BDEC, R119. -/
  | bdec (b : Byte)
  /-- HDEC, R121. -/
  | hdec (b : Byte)
  /-- FSDEC, R123. -/
  | fsdec (buf : Buffer)
  /-- FSENC, R124. -/
  | fsenc (p : FoodSafe)
  /-- ADEC, R126. -/
  | adec (buf : Buffer)
  /-- FBUILD, R153. -/
  | fbuild (mtype : Byte) (payload : Buffer)
  /-- FPARSE, R156. -/
  | fparse (buf : Buffer)
  /-- CRC16, R151. -/
  | crc16 (buf : Buffer)
  /-- LSESS, R181. -/
  | lsess (id : U32) (periodMs : U16)
  /-- LSTAT, R187. -/
  | lstat (min : U32) (max : U32) (t : RawTemps) (mode : OpMode)
  /-- LFRAME, R184. -/
  | lframe (seq : U32) (t : RawTemps)
  /-- LMISS, R185. -/
  | lmiss (min : U32) (max : U32)
  /-- LUTD, R192. -/
  | lutd
  /-- IRQRY, R211. -/
  | irqry (hopPresent : Bool) (hop : Byte) (now : U64)
  /-- IRACC, R213. -/
  | iracc (value : S32) (hopPresent : Bool) (hop : Byte) (now : U64)
  /-- IRRD, R214. -/
  | irrd (now : U64)
  /-- PUPD, R232. -/
  | pupd (stPresent : Bool) (st : PredictionStatus) (seq : U32) (now : U64)
  /-- PRD, R246. -/
  | prd
  /-- PPCT, R241. -/
  | ppct (estCore : S32) (heatStart : S32) (setPoint : S32)
  /-- PTICK, internal, R244. -/
  | ptick
  /-- PWDOG, internal, R245. -/
  | pwdog
deriving DecidableEq, Repr

end Sys2Proof
end

