-- ==== Sys2Proof/Config.lean ====
section
/-! DEFINITION. What an implementation fixes (`Params`, the table of R5, every line of it a field) and the free values:
constants without a body, so that nothing can evaluate them and a statement about them holds for every value. -/

namespace Sys2Proof

/-! ### The parameter table (R5) -/

/-- Where a field lies in a little-endian bit string: bits `lo + width - 1` to `lo` (R6, R62). -/
structure FieldPlace where
  lo : Nat
  width : Nat
deriving DecidableEq, Repr

/-- The layout of the ModeIdentity byte, OPEN (R116, D11). -/
structure ModeLayout where
  mode : FieldPlace
  color : FieldPlace
  id : FieldPlace
deriving DecidableEq, Repr

/-- The layout of the BatteryAndVirtualSensors byte, OPEN (R118, D12). -/
structure BatteryLayout where
  battery : FieldPlace
  core : FieldPlace
  surface : FieldPlace
  ambient : FieldPlace
deriving DecidableEq, Repr

/-- The layout of the food-safe buffer, OPEN (R122, D14, I4). -/
structure FoodSafeLayout where
  sel : FieldPlace
  thr : FieldPlace
  z : FieldPlace
  ref : FieldPlace
  d : FieldPlace
  lr : FieldPlace
deriving DecidableEq, Repr

/-- The four layouts of packed bytes that R5 lists; the HopCount byte holds one field (R120, D13). Log 20. -/
structure Layouts where
  modeByte : ModeLayout
  batteryByte : BatteryLayout
  hopByte : FieldPlace
  foodSafe : FoodSafeLayout
deriving DecidableEq, Repr

/-- The parameters of R5 whose value is the source's (src) or the spec's decision (dec); each is named as R5 names it, in
lower camel case. Log 21. -/
structure Constants where
  sync0 : Byte
  sync1 : Byte
  reqHdrLen : Nat
  rspHdrLen : Nat
  sessionMinLen : Nat
  overTempMinLen : Nat
  advMinLen : Nat
  tempLsbCenti : Nat
  lrLsbCenti : Nat
  maxLogRequest : Nat
  irLockoutMs : Nat
  irStaleMs : Nat
  predStaleMs : Nat
  tickMs : Nat
  reportMs : Nat
  maxPredS : Nat
  lowresCutoffS : Nat
  lowresStepS : Nat
  lowresEvery : Nat
  timeW : Nat
  linW : Nat
deriving DecidableEq, Repr

/-- The parameter table of R5, fixed when the instance is built (R25): the OPEN parameters (TEMP_OFFSET_CENTI, OPEN in
decision D6, among them), the layouts, and the constants of the source and of the spec. The values at reset are
`Machine.defaultParams`. Log 6, log 8, log 9. -/
structure Params where
  crcPoly : U16
  crcInit : U16
  crcRefIn : Bool
  crcRefOut : Bool
  crcXorOut : U16
  mtSetId : Byte
  mtSetColor : Byte
  mtSession : Byte
  mtLog : Byte
  mtSetPred : Byte
  mtOverTemp : Byte
  logMinLen : Nat
  vendorId : U16
  productProbe : Byte
  tempOffsetCenti : Int
  logDepth : Option Nat
  maxSessions : Option Nat
  rxMax : Option Nat
  layouts : Layouts
  consts : Constants
deriving DecidableEq, Repr

/-! ### Free values -/

/-- The value registers that an operation may leave unspecified (R6, R47, R213). -/
inductive FreeSlot where
  | sessId
  | sessPeriodMs
  | reqMin
  | reqMax
  | irValue
  | irTs
  | irHop
  | prevSeq
  | tickerDeadline
  | wdogDeadline
  | secs
deriving DecidableEq, Repr

/-- The bits an unspecified register holds at the given draw; a narrower register takes the low bits.
DESIGN CHOICE of form, log 2, log 3, log 4; safe: nothing constrains it. -/
opaque Config.freeBits : FreeSlot → Nat → BitVec 64

/-- The PredictionInfo that `prev_info` holds while `prev_info_valid` is 0. Log 2, log 4; safe: nothing constrains it. -/
opaque Config.freeInfo : Nat → PredictionInfo

/-- U2: which of the ticker (true) and the watchdog (false) fires first when both are due before a command at equal
deadlines. Log 13; safe: nothing constrains it. -/
opaque Config.tickerFirst : Nat → Bool

end Sys2Proof
end

