-- ==== Sys2Proof/WellFormed.lean ====
section
/-! DEFINITION. Which operations a command of R81 can carry, and which parameter tables R5 and R87 allow. -/

namespace Sys2Proof

/-- A buffer operand fits the `u16` length of R81. -/
def Buffer.fits (buf : Buffer) : Bool := decide (buf.length < 65536)

/-- An operation R81 can encode: every buffer operand fits its `u16` length. A FBUILD payload above 255 is encodable and
answered ILLEGAL (R153, R283). -/
def Instr.wf : Instr → Bool
  | .tdec buf => buf.fits
  | .fsdec buf => buf.fits
  | .adec buf => buf.fits
  | .fbuild _ payload => payload.fits
  | .fparse buf => buf.fits
  | .crc16 buf => buf.fits
  | .nop | .rst | .disc | .tenc _ | .mdec _ | .bdec _ | .hdec _ | .fsenc _ | .lsess _ _ | .lstat _ _ _ _ | .lframe _ _
  | .lmiss _ _ | .lutd | .irqry _ _ _ | .iracc _ _ _ _ | .irrd _ | .pupd _ _ _ _ | .prd | .ppct _ _ _ | .ptick | .pwdog =>
    true

/-- The recognised message types, in the order of R87. -/
def Params.messageTypes (p : Params) : List Byte :=
  [p.mtSetId, p.mtSetColor, p.mtSession, p.mtLog, p.mtSetPred, p.mtOverTemp]

/-- Two fields share no bit. -/
def FieldPlace.apart (a b : FieldPlace) : Bool := decide (a.lo + a.width ≤ b.lo) || decide (b.lo + b.width ≤ a.lo)

/-- Fields that lie inside a string of `bits` bits and share none (R63). -/
def placesWf (bits : Nat) (fs : List FieldPlace) : Bool :=
  fs.all (fun f => decide (f.lo + f.width ≤ bits)) && decide (fs.Pairwise fun a b => a.apart b = true)

/-- The fields of the ModeIdentity byte, as R116 lists them. -/
def ModeLayout.places (l : ModeLayout) : List FieldPlace := [l.mode, l.color, l.id]

/-- A layout of the ModeIdentity byte: 2 + 3 + 3 bits, the widths the source gives (R116). -/
def ModeLayout.wf (l : ModeLayout) : Bool :=
  placesWf 8 l.places && l.mode.width == 2 && l.color.width == 3 && l.id.width == 3

/-- The fields of the battery byte, as R118 lists them. -/
def BatteryLayout.places (l : BatteryLayout) : List FieldPlace := [l.battery, l.core, l.surface, l.ambient]

/-- A layout of the battery byte: no field wider than its result (R82, R118). -/
def BatteryLayout.wf (l : BatteryLayout) : Bool :=
  placesWf 8 l.places && decide (l.battery.width ≤ 1) && decide (l.core.width ≤ 3) && decide (l.surface.width ≤ 2) &&
    decide (l.ambient.width ≤ 2)

/-- The fields of the food-safe buffer, as R122 lists them. -/
def FoodSafeLayout.places (l : FoodSafeLayout) : List FieldPlace := [l.sel, l.thr, l.z, l.ref, l.d, l.lr]

/-- A layout of the food-safe buffer: four fields of 13 bits and one of 8, the widths the source gives, and a selector of at
most its 16 operand bits (R82, R122, D14). -/
def FoodSafeLayout.wf (l : FoodSafeLayout) : Bool :=
  placesWf 80 l.places && decide (l.sel.width ≤ 16) && l.thr.width == 13 && l.z.width == 13 && l.ref.width == 13 &&
    l.d.width == 13 && l.lr.width == 8

/-- Layouts that D11 to D14 admit. -/
def Layouts.wf (l : Layouts) : Bool :=
  l.modeByte.wf && l.batteryByte.wf && placesWf 8 [l.hopByte] && l.foodSafe.wf

/-- A parameter table R5 admits: six distinct message types (D2), a log-record minimum of 17 or 24 (D3) and layouts whose
fields fit and share no bit (D11 to D14). -/
def Params.wf (p : Params) : Bool :=
  decide p.messageTypes.Nodup && (p.logMinLen == 17 || p.logMinLen == 24) && p.layouts.wf

end Sys2Proof
end

