-- ==== Sys2Proof/Decode.lean ====
section
/-! DEFINITION. The command encoding of R81 and R82: byte-order helpers, the decoder of one command, total on any bytes
and rejecting by name, then the encoder written from the same tables. -/

namespace Sys2Proof

/-! ### Byte order (R7, R62) -/

/-- The unsigned little-endian integer of a byte string: `le_len(buf)(buf, 0)` of R7. -/
def leNat : Buffer → Nat
  | [] => 0
  | b :: bs => b.toNat + 256 * leNat bs

/-- The `n`-byte little-endian string of a natural number, taken modulo `256 ^ n` (R7, R8 `MemWrite`). -/
def leBytes : Nat → Nat → Buffer
  | 0, _ => []
  | n + 1, v => BitVec.ofNat 8 v :: leBytes n (v / 256)

/-! ### Codes of enumerated operands (R84, R86) -/

/-- The mode with a 2-bit code (R84). -/
def opModeOfCode (c : BitVec 2) : OpMode :=
  if c = 0#2 then .normal else if c = 1#2 then .instantRead else if c = 2#2 then .reserved else .error

/-- The 2-bit code of a mode (R84). -/
def opModeCode : OpMode → BitVec 2
  | .normal => 0#2
  | .instantRead => 1#2
  | .reserved => 2#2
  | .error => 3#2

/-- The prediction mode with a 1-bit code (R86). -/
def predModeOfCode (c : BitVec 1) : PredMode :=
  if c = 0#1 then .none else .timeToRemoval

/-- The 1-bit code of a prediction mode (R86). -/
def predModeCode : PredMode → BitVec 1
  | .none => 0#1
  | .timeToRemoval => 1#1

/-! ### Readers of operand fields (R81) -/

/-- Why a byte string is not a command of R81. -/
inductive DecodeError where
  /-- There is no opcode byte. -/
  | empty
  /-- The operand fields are not all there. -/
  | truncated
  /-- The opcode is none of R80; the TPE answers ILLEGAL (R92). -/
  | unknownOpcode (op : Byte)
  /-- A presence byte is neither 0 nor 1 (R81). -/
  | badPresence (b : Byte)
  /-- Bytes are left over after the last operand field (R81: one length class). -/
  | trailingBytes
deriving DecidableEq, Repr

/-- What reading a field gives: the field and the bytes after it, or the reason there is none. -/
abbrev Decoded (α : Type) := Except DecodeError (α × Buffer)

/-- Read one field, then go on with it and the bytes after it. -/
def Decoded.andThen {α β : Type} (x : Decoded α) (f : α → Buffer → Decoded β) : Decoded β :=
  match x with
  | .ok (a, rest) => f a rest
  | .error e => .error e

/-- The first `n` bytes. -/
def takeBytes : Nat → Buffer → Decoded Buffer
  | 0, bs => .ok ([], bs)
  | _ + 1, [] => .error .truncated
  | n + 1, b :: bs => (takeBytes n bs).andThen fun xs rest => .ok (b :: xs, rest)

/-- A `w`-bit scalar in `n` bytes, little-endian, high padding bits ignored (R81, log 11). -/
def readScalar (n w : Nat) (bs : Buffer) : Decoded (BitVec w) :=
  (takeBytes n bs).andThen fun xs rest => .ok (BitVec.ofNat w (leNat xs), rest)

/-- A presence flag: one byte, 0 or 1 (R81). -/
def readFlag (bs : Buffer) : Decoded Bool :=
  (readScalar 1 8 bs).andThen fun b rest =>
    if b = 0#8 then .ok (false, rest) else if b = 1#8 then .ok (true, rest) else .error (.badPresence b)

/-- A buffer operand: a `u16` length, then that many bytes (R81). -/
def readBuffer (bs : Buffer) : Decoded Buffer :=
  (readScalar 2 16 bs).andThen fun n rest => takeBytes n.toNat rest

/-- Eight raw codes, each a `u16` (R82). -/
def readTemps (bs : Buffer) : Decoded RawTemps :=
  (readScalar 2 16 bs).andThen fun t0 bs => (readScalar 2 16 bs).andThen fun t1 bs =>
  (readScalar 2 16 bs).andThen fun t2 bs => (readScalar 2 16 bs).andThen fun t3 bs =>
  (readScalar 2 16 bs).andThen fun t4 bs => (readScalar 2 16 bs).andThen fun t5 bs =>
  (readScalar 2 16 bs).andThen fun t6 bs => (readScalar 2 16 bs).andThen fun t7 bs =>
    .ok (⟨t0, t1, t2, t3, t4, t5, t6, t7⟩, bs)

/-- A PredictionStatus (R86): code bytes for state and mode, the type byte, then the 32-bit fields. -/
def readStatus (bs : Buffer) : Decoded PredictionStatus :=
  (readScalar 1 2 bs).andThen fun state bs => (readScalar 1 1 bs).andThen fun mode bs =>
  (readScalar 1 8 bs).andThen fun ptype bs => (readScalar 4 32 bs).andThen fun setPoint bs =>
  (readScalar 4 32 bs).andThen fun heatStart bs => (readScalar 4 32 bs).andThen fun predSecs bs =>
  (readScalar 4 32 bs).andThen fun estCore bs =>
    .ok (⟨state, predModeOfCode mode, ptype, setPoint, heatStart, predSecs, estCore⟩, bs)

/-- The six food-safe operands (R82, R124). -/
def readFoodSafe (bs : Buffer) : Decoded FoodSafe :=
  (readScalar 2 16 bs).andThen fun sel bs => (readScalar 4 32 bs).andThen fun thr bs =>
  (readScalar 4 32 bs).andThen fun z bs => (readScalar 4 32 bs).andThen fun ref bs =>
  (readScalar 4 32 bs).andThen fun d bs => (readScalar 4 32 bs).andThen fun lr bs =>
    .ok (⟨sel, thr, z, ref, d, lr⟩, bs)

/-! ### The decoder (R80, R81, R82) -/

/-- The operation with opcode `op` and operand fields `bs`, and the bytes after it. -/
def decodeOperands (op : Byte) (bs : Buffer) : Decoded Instr :=
  match op with
  | 0x00#8 => .ok (.nop, bs)
  | 0x01#8 => .ok (.rst, bs)
  | 0x02#8 => .ok (.disc, bs)
  | 0x10#8 => (readBuffer bs).andThen fun buf bs => .ok (.tdec buf, bs)
  | 0x11#8 => (readTemps bs).andThen fun t bs => .ok (.tenc t, bs)
  | 0x12#8 => (readScalar 1 8 bs).andThen fun b bs => .ok (.mdec b, bs)
  | 0x13#8 => (readScalar 1 8 bs).andThen fun b bs => .ok (.bdec b, bs)
  | 0x14#8 => (readScalar 1 8 bs).andThen fun b bs => .ok (.hdec b, bs)
  | 0x15#8 => (readBuffer bs).andThen fun buf bs => .ok (.fsdec buf, bs)
  | 0x16#8 => (readFoodSafe bs).andThen fun p bs => .ok (.fsenc p, bs)
  | 0x17#8 => (readBuffer bs).andThen fun buf bs => .ok (.adec buf, bs)
  | 0x20#8 =>
    (readScalar 1 8 bs).andThen fun mtype bs => (readBuffer bs).andThen fun payload bs => .ok (.fbuild mtype payload, bs)
  | 0x21#8 => (readBuffer bs).andThen fun buf bs => .ok (.fparse buf, bs)
  | 0x22#8 => (readBuffer bs).andThen fun buf bs => .ok (.crc16 buf, bs)
  | 0x30#8 =>
    (readScalar 4 32 bs).andThen fun id bs => (readScalar 2 16 bs).andThen fun period bs => .ok (.lsess id period, bs)
  | 0x31#8 =>
    (readScalar 4 32 bs).andThen fun min bs => (readScalar 4 32 bs).andThen fun max bs =>
    (readTemps bs).andThen fun t bs => (readScalar 1 2 bs).andThen fun mode bs =>
      .ok (.lstat min max t (opModeOfCode mode), bs)
  | 0x32#8 => (readScalar 4 32 bs).andThen fun seq bs => (readTemps bs).andThen fun t bs => .ok (.lframe seq t, bs)
  | 0x33#8 =>
    (readScalar 4 32 bs).andThen fun min bs => (readScalar 4 32 bs).andThen fun max bs => .ok (.lmiss min max, bs)
  | 0x34#8 => .ok (.lutd, bs)
  | 0x40#8 =>
    (readFlag bs).andThen fun present bs => (readScalar 1 8 bs).andThen fun hop bs =>
    (readScalar 8 64 bs).andThen fun now bs => .ok (.irqry present hop now, bs)
  | 0x41#8 =>
    (readScalar 4 32 bs).andThen fun value bs => (readFlag bs).andThen fun present bs =>
    (readScalar 1 8 bs).andThen fun hop bs => (readScalar 8 64 bs).andThen fun now bs =>
      .ok (.iracc value present hop now, bs)
  | 0x42#8 => (readScalar 8 64 bs).andThen fun now bs => .ok (.irrd now, bs)
  | 0x50#8 =>
    (readFlag bs).andThen fun present bs => (readStatus bs).andThen fun st bs =>
    (readScalar 4 32 bs).andThen fun seq bs => (readScalar 8 64 bs).andThen fun now bs =>
      .ok (.pupd present st seq now, bs)
  | 0x51#8 => .ok (.prd, bs)
  | 0x52#8 =>
    (readScalar 4 32 bs).andThen fun core bs => (readScalar 4 32 bs).andThen fun start bs =>
    (readScalar 4 32 bs).andThen fun sp bs => .ok (.ppct core start sp, bs)
  | 0xE0#8 => .ok (.ptick, bs)
  | 0xE1#8 => .ok (.pwdog, bs)
  | op => .error (.unknownOpcode op)

/-- The first operation of a byte string, and the bytes after it. -/
def decode : Buffer → Decoded Instr
  | [] => .error .empty
  | op :: bs => decodeOperands op bs

/-! ### The encoder (R80, R81, R82) -/

/-- A `w`-bit scalar in `n` bytes, padding bits 0. -/
def writeScalar {w : Nat} (n : Nat) (v : BitVec w) : Buffer := leBytes n v.toNat

/-- A presence flag. -/
def writeFlag (b : Bool) : Buffer := [if b then 1#8 else 0#8]

/-- A buffer operand. -/
def writeBuffer (buf : Buffer) : Buffer := leBytes 2 buf.length ++ buf

/-- Eight raw codes. -/
def writeTemps (t : RawTemps) : Buffer :=
  writeScalar 2 t.t0 ++ (writeScalar 2 t.t1 ++ (writeScalar 2 t.t2 ++ (writeScalar 2 t.t3 ++ (writeScalar 2 t.t4 ++
    (writeScalar 2 t.t5 ++ (writeScalar 2 t.t6 ++ writeScalar 2 t.t7))))))

/-- A PredictionStatus. -/
def writeStatus (st : PredictionStatus) : Buffer :=
  writeScalar 1 st.state ++ (writeScalar 1 (predModeCode st.mode) ++ (writeScalar 1 st.ptype ++
    (writeScalar 4 st.setPoint ++ (writeScalar 4 st.heatStart ++ (writeScalar 4 st.predSecs ++
      writeScalar 4 st.estCore)))))

/-- The six food-safe operands. -/
def writeFoodSafe (p : FoodSafe) : Buffer :=
  writeScalar 2 p.sel ++ (writeScalar 4 p.thr ++ (writeScalar 4 p.z ++ (writeScalar 4 p.ref ++
    (writeScalar 4 p.d ++ writeScalar 4 p.lr))))

/-- The opcode of R80. -/
def opcode : Instr → Byte
  | .nop => 0x00#8
  | .rst => 0x01#8
  | .disc => 0x02#8
  | .tdec _ => 0x10#8
  | .tenc _ => 0x11#8
  | .mdec _ => 0x12#8
  | .bdec _ => 0x13#8
  | .hdec _ => 0x14#8
  | .fsdec _ => 0x15#8
  | .fsenc _ => 0x16#8
  | .adec _ => 0x17#8
  | .fbuild _ _ => 0x20#8
  | .fparse _ => 0x21#8
  | .crc16 _ => 0x22#8
  | .lsess _ _ => 0x30#8
  | .lstat _ _ _ _ => 0x31#8
  | .lframe _ _ => 0x32#8
  | .lmiss _ _ => 0x33#8
  | .lutd => 0x34#8
  | .irqry _ _ _ => 0x40#8
  | .iracc _ _ _ _ => 0x41#8
  | .irrd _ => 0x42#8
  | .pupd _ _ _ _ => 0x50#8
  | .prd => 0x51#8
  | .ppct _ _ _ => 0x52#8
  | .ptick => 0xE0#8
  | .pwdog => 0xE1#8

/-- The operand fields of R82, in order. -/
def encodeOperands : Instr → Buffer
  | .nop => []
  | .rst => []
  | .disc => []
  | .tdec buf => writeBuffer buf
  | .tenc t => writeTemps t
  | .mdec b => writeScalar 1 b
  | .bdec b => writeScalar 1 b
  | .hdec b => writeScalar 1 b
  | .fsdec buf => writeBuffer buf
  | .fsenc p => writeFoodSafe p
  | .adec buf => writeBuffer buf
  | .fbuild mtype payload => writeScalar 1 mtype ++ writeBuffer payload
  | .fparse buf => writeBuffer buf
  | .crc16 buf => writeBuffer buf
  | .lsess id period => writeScalar 4 id ++ writeScalar 2 period
  | .lstat min max t mode =>
    writeScalar 4 min ++ (writeScalar 4 max ++ (writeTemps t ++ writeScalar 1 (opModeCode mode)))
  | .lframe seq t => writeScalar 4 seq ++ writeTemps t
  | .lmiss min max => writeScalar 4 min ++ writeScalar 4 max
  | .lutd => []
  | .irqry present hop now => writeFlag present ++ (writeScalar 1 hop ++ writeScalar 8 now)
  | .iracc value present hop now =>
    writeScalar 4 value ++ (writeFlag present ++ (writeScalar 1 hop ++ writeScalar 8 now))
  | .irrd now => writeScalar 8 now
  | .pupd present st seq now => writeFlag present ++ (writeStatus st ++ (writeScalar 4 seq ++ writeScalar 8 now))
  | .prd => []
  | .ppct core start sp => writeScalar 4 core ++ (writeScalar 4 start ++ writeScalar 4 sp)
  | .ptick => []
  | .pwdog => []

/-- The command bytes of an operation: the opcode byte, then the operand fields (R81). -/
def encode (i : Instr) : Buffer := opcode i :: encodeOperands i

/-! ### The host's words -/

/-- The bytes of a table word of `nbits` bits, lowest first, with the operand bytes above it zero (as many as the longest
command has: opcode, message type, length and 65535 bytes). -/
def tableBytes (nbits w : Nat) : Buffer := leBytes (nbits / 8) w ++ List.replicate 65539 0#8

/-- The operation the decoder reads from a table word. -/
def decodeTableWord (nbits w : Nat) : Option Instr :=
  match decode (tableBytes nbits w) with
  | .ok (i, _) => some i
  | .error _ => none

end Sys2Proof
end

