-- ==== Sys2Proof/Machine/Parameters.lean ====
section
/-! DEFINITION. The values that the table of R5 prints: the defaults of the OPEN parameters, the layouts, and the values of
the source and of the spec. Every literal of the source is unaudited (R5); it stands here once. Log 6, log 20, log 21. -/

namespace Sys2Proof.Machine

/-- The layouts that R116, R118, R120 and R122 print, the defaults of D11 to D14. Log 20. -/
def printedLayouts : Layouts where
  modeByte := { mode := ⟨0, 2⟩, color := ⟨2, 3⟩, id := ⟨5, 3⟩ }
  batteryByte := { battery := ⟨0, 1⟩, core := ⟨1, 3⟩, surface := ⟨4, 2⟩, ambient := ⟨6, 2⟩ }
  hopByte := ⟨0, 2⟩
  foodSafe := { sel := ⟨0, 16⟩, thr := ⟨16, 13⟩, z := ⟨29, 13⟩, ref := ⟨42, 13⟩, d := ⟨55, 13⟩, lr := ⟨68, 8⟩ }

/-- The values of the source and of the spec, as R5 prints them. Log 21. -/
def tableConsts : Constants where
  sync0 := 0xCA#8
  sync1 := 0xFE#8
  reqHdrLen := 6
  rspHdrLen := 7
  sessionMinLen := 6
  overTempMinLen := 1
  advMinLen := 20
  tempLsbCenti := 5
  lrLsbCenti := 10
  maxLogRequest := 500
  irLockoutMs := 1000
  irStaleMs := 5000
  predStaleMs := 15000
  tickMs := 200
  reportMs := 5000
  maxPredS := 14400
  lowresCutoffS := 300
  lowresStepS := 15
  lowresEvery := 3
  timeW := 64
  linW := 64

/-- The table of R5 with the default of every OPEN parameter. Log 6. -/
def defaultParams : Params where
  crcPoly := 0x1021#16
  crcInit := 0xFFFF#16
  crcRefIn := false
  crcRefOut := false
  crcXorOut := 0x0000#16
  mtSetId := 0x01#8
  mtSetColor := 0x02#8
  mtSession := 0x03#8
  mtLog := 0x04#8
  mtSetPred := 0x05#8
  mtOverTemp := 0x06#8
  logMinLen := 17
  vendorId := 0x09C7#16
  productProbe := 0x01#8
  tempOffsetCenti := -2000
  logDepth := none
  maxSessions := none
  rxMax := none
  layouts := printedLayouts
  consts := tableConsts

end Sys2Proof.Machine
end

