-- ==== Sys2Proof/Machine/State.lean ====
section
/-! DEFINITION. The state of one TPE instance (R20) as plain data, its channels, the reasons a step can stop, and the
state after reset (R47). -/

namespace Sys2Proof.Machine

/-! ### The log store -/

/-- One logged data point (R27). -/
structure LogEntry where
  seq : U32
  temps : TempSet
deriving DecidableEq, Repr

/-- A TemperatureLog, in ascending order of sequence number (R27, R28). -/
abbrev TempLog := List LogEntry

/-- The log store `S.logs`, the only memory that persists between operations (R27, R60 (3)): logs by session id, in
ascending order of id, no log empty. -/
abbrev Memory := List (U32 × TempLog)

/-- The canonical form of the log store (R28): session ids strictly rising, each log non-empty with sequence numbers
strictly rising. Equal stores are then equal data. -/
abbrev Memory.wf (m : Memory) : Prop :=
  (m.map fun e => e.1.toNat).Pairwise (· < ·) ∧
    ∀ e ∈ m, e.2 ≠ [] ∧ (e.2.map fun x => x.seq.toNat).Pairwise (· < ·)

/-! ### Agents -/

/-- What an agent does next (R10): the host presents a command, or one of the two timers takes its turn. Log 12. -/
inductive Event where
  | command (bytes : Buffer)
  | ticker
  | watchdog
deriving DecidableEq, Repr

/-! ### The state -/

/-- The state of one TPE instance. The registers are those of R20, each named as 10_state.md names it; then the recorded
channels; then the model's own fields. -/
structure State where
  /-- S.time_ms (R23). Log 10. -/
  timeMs : Nat
  /-- S.sess_valid (R26). -/
  sessValid : Bool
  /-- S.sess_id (R26). -/
  sessId : U32
  /-- S.sess_period_ms (R26). -/
  sessPeriodMs : U16
  /-- S.logs (R27). -/
  logs : Memory
  /-- S.req_out (R30). -/
  reqOut : Bool
  /-- S.req_min (R30). -/
  reqMin : U32
  /-- S.req_max (R30). -/
  reqMax : U32
  /-- S.up_to_date (R31). -/
  upToDate : Bool
  /-- S.ir_valid (R32). -/
  irValid : Bool
  /-- S.ir_value (R32). -/
  irValue : S32
  /-- S.ir_ts (R32). Log 10. -/
  irTs : Nat
  /-- S.ir_hop_present (R32). -/
  irHopPresent : Bool
  /-- S.ir_hop (R32). -/
  irHop : Byte
  /-- S.prev_info_valid (R34). -/
  prevInfoValid : Bool
  /-- S.prev_info (R34, R35). -/
  prevInfo : PredictionInfo
  /-- S.prev_seq_valid (R36). -/
  prevSeqValid : Bool
  /-- S.prev_seq (R36). -/
  prevSeq : U32
  /-- S.target_seconds (R37). -/
  targetSeconds : U32
  /-- S.step_per_tick (R37), a signed value of LIN_W bits. Log 21. -/
  stepPerTick : Int
  /-- S.current_ms (R37), a signed value of LIN_W bits. Log 21. -/
  currentMs : Int
  /-- S.ticker_armed (R38). -/
  tickerArmed : Bool
  /-- S.ticker_deadline (R38). Log 10. -/
  tickerDeadline : Nat
  /-- S.wdog_armed (R39). -/
  wdogArmed : Bool
  /-- S.wdog_deadline (R39). Log 10. -/
  wdogDeadline : Nat
  /-- S.pred_stale (R40). -/
  predStale : Bool
  /-- Channel TX: byte strings handed to the transport, oldest first (R43). -/
  tx : List Buffer
  /-- Channel PUB: published events, oldest first (R45). -/
  pub : List (Option PredictionInfo)
  /-- Channel RSP: responses given, oldest first (R42). Log 17. -/
  rsp : List Response
  /-- The MODEL's own: what the agents do next, first entry first. Log 12. -/
  agenda : List Event
  /-- The MODEL's own: the parameters this instance was built with (R5, R25); no step writes it. Log 6. -/
  params : Params
  /-- The MODEL's own: how many free values have been drawn. Log 5. -/
  freeCount : Nat
deriving DecidableEq, Repr

/-- The TPE has no fault: no operation raises an exception or aborts (R280), so this type is empty (U12: `fault` and
`stuck`: none exist). No one raises one; safe. -/
inductive Fault where
deriving DecidableEq, Repr

/-- Why a step gives no meaning. -/
inductive Refusal where
  /-- An arm of `exec` without a meaning would raise it; none does. Safe. -/
  | notModelled (mnemonic : String)
  /-- `step` raises it for a byte string on CMD that is no command of R81 and for which R283 names no ILLEGAL response.
  Log 16. Safe: the model stops and claims nothing. -/
  | malformedCommand (why : DecodeError)
deriving DecidableEq, Repr

/-- The PredictionInfo that `prev_info` holds at reset, where the spec gives no value. DESIGN CHOICE, log 1, unsafe. -/
def resetInfo : PredictionInfo where
  state := .idle
  mode := .none
  ptype := 0#8
  setPoint := 0#32
  heatStart := 0#32
  estCore := 0#32
  secsValid := false
  secs := 0#32
  percent := 0#7

/-- The machine after power-on (R47). The registers R47 calls unspecified hold zero: DESIGN CHOICE, log 1, unsafe. -/
def State.reset : State where
  timeMs := 0
  sessValid := false
  sessId := 0#32
  sessPeriodMs := 0#16
  logs := []
  reqOut := false
  reqMin := 0#32
  reqMax := 0#32
  upToDate := false
  irValid := false
  irValue := 0#32
  irTs := 0
  irHopPresent := false
  irHop := 0#8
  prevInfoValid := false
  prevInfo := resetInfo
  prevSeqValid := false
  prevSeq := 0#32
  targetSeconds := 0#32
  stepPerTick := 0
  currentMs := 0
  tickerArmed := false
  tickerDeadline := 0
  wdogArmed := false
  wdogDeadline := 0
  predStale := false
  tx := []
  pub := []
  rsp := []
  agenda := []
  params := defaultParams
  freeCount := 0

end Sys2Proof.Machine
end

