-- ==== Sys2Proof/Machine/Flags.lean ====
section
/-! DEFINITION. The conditions over the one-bit registers of R24 that the operations test. The TPE has no condition
codes: a flag is written only by the operation whose rule names it. -/

namespace Sys2Proof.Machine

/-- `in_lockout(S, now)` (R212): the half-open window after the last accepted instant read. -/
def inLockout (now : Nat) (s : State) : Bool := s.irValid && decide (now - s.irTs < s.params.consts.irLockoutMs)

/-- `should_accept(S, hop_present, hop, now)` (R211): the first matching clause decides. -/
def shouldAccept (hopPresent : Bool) (hop : Byte) (now : Nat) (s : State) : Bool :=
  if !hopPresent then true
  else if !inLockout now s then true
  else if !s.irHopPresent then false
  else decide (hop.toNat ≤ s.irHop.toNat)

/-- The instant read is visible: accepted and less than IR_STALE_MS old (R214). -/
def irVisible (now : Nat) (s : State) : Bool := s.irValid && decide (now - s.irTs < s.params.consts.irStaleMs)

/-- The update repeats the previous sequence number (R231). -/
def isDuplicate (seq : U32) (s : State) : Bool := s.prevSeqValid && decide (seq = s.prevSeq)

/-- `have_prev` of R238: a countdown is displayed. -/
def havePrev (s : State) : Bool := s.prevInfoValid && s.prevInfo.secsValid

/-- `walk` of R239: the previous state was PREDICTING and a countdown was displayed. -/
def walks (s : State) : Bool := s.prevInfoValid && decide (s.prevInfo.state = .predicting) && s.prevInfo.secsValid

/-- PTICK is enabled (R243). -/
def tickEnabled (s : State) : Bool := s.tickerArmed && decide (s.tickerDeadline ≤ s.wdogDeadline)

/-- PWDOG is enabled (R243). -/
def wdogEnabled (s : State) : Bool :=
  s.wdogArmed && (!s.tickerArmed || decide (s.wdogDeadline ≤ s.tickerDeadline))

/-- PRD has a value to return (R246). -/
def infoVisible (s : State) : Bool := s.prevInfoValid && !s.predStale

end Sys2Proof.Machine
end

