-- ==== Sys2Proof/Machine/Operands.lean ====
section
/-! DEFINITION. Operand forms: buffer reads by byte and by bit field (R7, R62, R103), masking of raw codes (R82), codes of
operands that the operations themselves interpret (R86), rounding (R8), and the registers whose width R5 gives. -/

namespace Sys2Proof.Machine

/-- `buf[i]` (R7). With the lengths that R5 prints, every use tests the length first (R65). With a replaced minimum length
below the bytes an operation reads, a byte past the end reads as 0: DESIGN CHOICE, log 23, unsafe. -/
def byteAt (buf : Buffer) (i : Nat) : Byte := buf.getD i 0#8

/-- `buf[a .. a + n)` (R7), of a shorter buffer the bytes it has (log 23). -/
def slice (buf : Buffer) (a n : Nat) : Buffer := (buf.drop a).take n

/-- `le_n(buf, a)` (R7). -/
def leAt (n : Nat) (buf : Buffer) (a : Nat) : Nat := leNat (slice buf a n)

/-- The big-endian integer of a byte string (R7). -/
def beNat (bs : Buffer) : Nat := bs.foldl (fun acc b => acc * 256 + b.toNat) 0

/-- `be_n(buf, a)` (R7); the advertising serial is the one field read so (R61). -/
def beAt (n : Nat) (buf : Buffer) (a : Nat) : Nat := beNat (slice buf a n)

/-- `field(buf, o, w)`: the `w`-bit field at bit offset `o` of a little-endian bit string (R7, R62). -/
def field (buf : Buffer) (o w : Nat) : Nat := (leNat buf >>> o) % 2 ^ w

/-- OR a `w`-bit field into place: `V | ((v & mask) << o)` (R63). -/
def insertField (V o w v : Nat) : Nat := V ||| ((v % 2 ^ w) <<< o)

/-- The field of a buffer at a place of a layout (R62). -/
def fieldAt (buf : Buffer) (f : FieldPlace) : Nat := field buf f.lo f.width

/-- The field of one byte at a place of a layout (R6). -/
def byteField (b : Byte) (f : FieldPlace) : Nat := (b.toNat >>> f.lo) % 2 ^ f.width

/-- OR a field into its place of a layout (R63). -/
def insertAt (V : Nat) (f : FieldPlace) (v : Nat) : Nat := insertField V f.lo f.width v

/-- A raw code operand without its upper 3 bits (R82, D48). -/
def maskCode (v : U16) : RawCode := v.setWidth 13

/-- Eight raw codes, each masked to 13 bits (R82). -/
def maskTemps (t : RawTemps) : TempSet :=
  ⟨maskCode t.t0, maskCode t.t1, maskCode t.t2, maskCode t.t3, maskCode t.t4, maskCode t.t5, maskCode t.t6, maskCode t.t7⟩

/-- The `u16` operands that carry a TemperatureSet, upper bits 0 (R82). -/
def widenTemps (t : TempSet) : RawTemps :=
  ⟨t.t0.setWidth 16, t.t1.setWidth 16, t.t2.setWidth 16, t.t3.setWidth 16, t.t4.setWidth 16, t.t5.setWidth 16,
    t.t6.setWidth 16, t.t7.setWidth 16⟩

/-- The state a PredictionStatus code means; code 3 is unrecognised and treated as IDLE (R86). -/
def predStateOfCode (c : BitVec 2) : PredState :=
  if c = 1#2 then .predicting else if c = 2#2 then .done else .idle

/-- `rnd(n, d)`: nearest integer to `n / d`, ties away from zero (R8). -/
def rnd (n : Int) (d : Nat) : Int := n.sign * ((2 * n.natAbs + d) / (2 * d) : Nat)

/-! ### Registers whose width is a parameter -/

/-- What the time base reads in a `now` operand: its low TIME_W bits (R5, R23, R44). Log 10. -/
def clock (p : Params) (now : U64) : Nat := now.toNat % 2 ^ p.consts.timeW

/-- A signed value wrapped to LIN_W bits, in two's complement (R5, R37, R244). Log 21. -/
def wrapLin (p : Params) (v : Int) : Int := v.bmod (2 ^ p.consts.linW)

end Sys2Proof.Machine
end

