-- ==== Sys2Proof/Machine/Ops.lean ====
section
/-! DEFINITION. The operations every meaning is written over: answering on RSP, the ILLEGAL answer (the TPE's only
counterpart of an exception: it raises none, R280, so there is nothing to save and nothing to return from, R288), the
time rule, the channels, free values, and the log store. -/

namespace Sys2Proof.Machine

/-- What a step or a meaning answers. -/
abbrev Answer := Host.Outcome State Fault Refusal

/-! ### Bounds (R29, U5) -/

/-- A count is within an optional bound (R29: unbounded admissible). -/
def within (bound : Option Nat) (n : Nat) : Bool :=
  match bound with
  | none => true
  | some b => decide (n ≤ b)

/-! ### Channels (R42, R43, R45) -/

/-- Append a response to RSP. -/
def respond (r : Response) (s : State) : State := { s with rsp := s.rsp ++ [r] }

/-- Complete a host operation with a response (R83). -/
def reply (r : Response) (s : State) : Answer := .next (respond r s)

/-- OK with a result, or ABSENT where there is none (R83, R280 `return absent`). -/
def optional {α : Type} (f : α → Results) (o : Option α) : Response :=
  match o with
  | some a => .ok (f a)
  | none => .absent

/-- Complete with a result, or ABSENT where there is none. -/
def replyOption {α : Type} (f : α → Results) (o : Option α) (s : State) : Answer := reply (optional f o) s

/-- The input buffer of FPARSE, ADEC or FSDEC, absent where it is longer than RX_MAX accepts: overflow drops
(91_not_in_source.md N21), that is, the input is discarded (R280). That it is the whole buffer, and what is then answered,
is DEDUCED, log 9, unsafe. -/
def received (p : Params) (buf : Buffer) : Option Buffer := if within p.rxMax buf.length then some buf else none

/-- The ILLEGAL answer: no register changes and nothing is emitted (R283). -/
def answerIllegal (s : State) : State := respond .illegal s

/-- `emit TX(bytes)` (R8, R43). -/
def transmit (frame : Buffer) (s : State) : State := { s with tx := s.tx ++ [frame] }

/-- `publish(x)` (R242). -/
def publish (x : Option PredictionInfo) (s : State) : State := { s with pub := s.pub ++ [x] }

/-! ### Time (R287) -/

/-- An operation that carries `now`: ILLEGAL when time runs backwards, else it runs with `S.time_ms <- now`
(R23, R287 (a)). -/
def atTime (now : U64) (s : State) (k : State → Answer) : Answer :=
  if clock s.params now < s.timeMs then .next (answerIllegal s) else k { s with timeMs := clock s.params now }

/-! ### Free values -/

/-- Count one draw of free values (log 5). -/
def drawn (s : State) : State := { s with freeCount := s.freeCount + 1 }

/-- The bits of an unspecified register at this draw, cut to its width (log 2, 3, 4). -/
def freeReg (w : Nat) (slot : FreeSlot) (s : State) : BitVec w := (Config.freeBits slot s.freeCount).setWidth w

/-! ### The log store (R27, R28, R182, R183) -/

/-- The log of a session, if the map has that key. -/
def Memory.log : Memory → U32 → Option TempLog
  | [], _ => none
  | (k, l) :: m, id => if k = id then some l else Memory.log m id

/-- The log has an entry with this sequence number. -/
def TempLog.hasSeq (l : TempLog) (n : Nat) : Bool := l.any fun e => decide (e.seq.toNat = n)

/-- The temperatures stored under a sequence number. -/
def TempLog.read : TempLog → U32 → Option TempSet
  | [], _ => none
  | e :: l, seq => if e.seq = seq then some e.temps else TempLog.read l seq

/-- Read one address of the log store: session id and sequence number (R60 (3)). -/
def Memory.read (m : Memory) (id seq : U32) : Option TempSet := (m.log id).bind fun l => TempLog.read l seq

/-- Insert an entry at its place in ascending order (R182). -/
def TempLog.place (e : LogEntry) : TempLog → TempLog
  | [] => [e]
  | x :: l => if e.seq.toNat < x.seq.toNat then e :: x :: l else x :: TempLog.place e l

/-- Set the log of a session, at its place in ascending order of id. -/
def Memory.put (id : U32) (l : TempLog) : Memory → Memory
  | [] => [(id, l)]
  | (k, x) :: m =>
    if k = id then (k, l) :: m
    else if id.toNat < k.toNat then (id, l) :: (k, x) :: m
    else (k, x) :: Memory.put id l m

/-- `append` on the store of a known session: a new log for a first point, nothing for a stored sequence number, a sorted
insert otherwise; at capacity the point is dropped (R182, R183). -/
def Memory.append (p : Params) (id : U32) (e : LogEntry) (m : Memory) : Memory :=
  match m.log id with
  | none => if within p.maxSessions (m.length + 1) && within p.logDepth 1 then Memory.put id [e] m else m
  | some l =>
    if TempLog.hasSeq l e.seq.toNat then m
    else if within p.logDepth (l.length + 1) then Memory.put id (TempLog.place e l) m
    else m

/-- `append(seq, t)`: with no session the point is dropped (R182). -/
def appendPoint (seq : U32) (t : TempSet) (s : State) : State :=
  if s.sessValid then { s with logs := Memory.append s.params s.sessId ⟨seq, t⟩ s.logs } else s

/-- `cur_log(S)` (R28). -/
def curLog (s : State) : TempLog := if s.sessValid then (s.logs.log s.sessId).getD [] else []

end Sys2Proof.Machine
end

