-- ==== Sys2Proof/Machine/Arbiter.lean ====
section
/-! DEFINITION. Unit ARB, the instant-read arbiter (spec/43_arbiter.md). Every operation carries `now` (R287). -/

namespace Sys2Proof.Machine

/-- IRQRY: the verdict, and `S.time_ms <- now` only (R211). -/
def execIrqry (hopPresent : Bool) (hop : Byte) (now : U64) (s : State) : Answer :=
  atTime now s fun s => reply (.ok (.accept (shouldAccept hopPresent hop s.timeMs s))) s

/-- The registers of an accepted candidate. A direct one leaves `ir_hop` unspecified: a free value (R213, U4, log 3). -/
def acceptCandidate (value : S32) (hopPresent : Bool) (hop : Byte) (now : Nat) (s : State) : State :=
  let s := { s with irValid := true, irValue := value, irTs := now, irHopPresent := hopPresent }
  if hopPresent then { s with irHop := hop } else drawn { s with irHop := freeReg 8 .irHop s }

/-- IRACC: an accepted candidate is stored, a rejected one changes nothing but the time (R213). -/
def execIracc (value : S32) (hopPresent : Bool) (hop : Byte) (now : U64) (s : State) : Answer :=
  atTime now s fun s =>
    if shouldAccept hopPresent hop s.timeMs s then
      reply (.ok (.accepted true)) (acceptCandidate value hopPresent hop s.timeMs s)
    else reply (.ok (.accepted false)) s

/-- IRRD: the stored value while it is less than 5000 ms old; the registers are not written (R214). -/
def execIrrd (now : U64) (s : State) : Answer :=
  atTime now s fun s =>
    if irVisible s.timeMs s then reply (.ok (.value s.irValue)) s else reply .absent s

end Sys2Proof.Machine
end

