-- ==== Sys2Proof/Machine/Codec.lean ====
section
/-! DEFINITION. Unit CODEC (spec/40_codec.md): pure functions of the operands (R110). The bit positions inside the packed
bytes are the layouts of the parameter table (log 20). -/

namespace Sys2Proof.Machine

/-! ### TemperatureSet -/

/-- Reading `i` of a packed TemperatureSet (R111). -/
def packedTemp (buf : Buffer) (i : Nat) : RawCode := BitVec.ofNat 13 (field buf (13 * i) 13)

/-- The TemperatureSet of 13 packed bytes (R111). -/
def unpackTemps (buf : Buffer) : TempSet :=
  ⟨packedTemp buf 0, packedTemp buf 1, packedTemp buf 2, packedTemp buf 3, packedTemp buf 4, packedTemp buf 5,
    packedTemp buf 6, packedTemp buf 7⟩

/-- Decode temperatures; absent below 13 bytes, bytes from 13 on ignored (R112). -/
def decodeTemps (buf : Buffer) : Option TempSet :=
  if buf.length < 13 then none else some (unpackTemps (buf.take 13))

/-- The 104-bit value of eight raw codes (R113). -/
def packTemps (t : TempSet) : Nat :=
  insertField (insertField (insertField (insertField (insertField (insertField (insertField (insertField 0
    0 13 t.t0.toNat) 13 13 t.t1.toNat) 26 13 t.t2.toNat) 39 13 t.t3.toNat) 52 13 t.t4.toNat) 65 13 t.t5.toNat)
    78 13 t.t6.toNat) 91 13 t.t7.toNat

/-- Encode temperatures into 13 bytes (R113). -/
def encodeTemps (t : TempSet) : Buffer := leBytes 13 (packTemps t)

/-- TDEC (R112). -/
def execTdec (buf : Buffer) (s : State) : Answer := replyOption .temps (decodeTemps buf) s

/-- TENC: each operand masked to 13 bits, then packed (R113). -/
def execTenc (t : RawTemps) (s : State) : Answer := reply (.ok (.bytes (encodeTemps (maskTemps t)))) s

/-- `temp_centi(r)` in centi degrees C (R114). -/
def tempCenti (p : Params) (r : RawCode) : Int := (p.consts.tempLsbCenti : Int) * r.toNat + p.tempOffsetCenti

/-- `temp_raw(c)`: the raw code of a representable value, absent for any other (R114). -/
def tempRaw (p : Params) (c : Int) : Option RawCode :=
  let q := (c - p.tempOffsetCenti) / p.consts.tempLsbCenti
  if (c - p.tempOffsetCenti) % p.consts.tempLsbCenti = 0 ∧ 0 ≤ q ∧ q ≤ 8191 then some (BitVec.ofInt 13 q) else none

/-! ### Packed bytes -/

/-- Decode the ModeIdentity byte (R116, R117). -/
def decodeModeIdentity (p : Params) (b : Byte) : ModeIdentity where
  mode := opModeOfCode (BitVec.ofNat 2 (byteField b p.layouts.modeByte.mode))
  color := BitVec.ofNat 3 (byteField b p.layouts.modeByte.color)
  id := BitVec.ofNat 3 (byteField b p.layouts.modeByte.id)

/-- MDEC (R117). -/
def execMdec (b : Byte) (s : State) : Answer := reply (.ok (.modeIdentity (decodeModeIdentity s.params b))) s

/-- The core selector of a raw code: 6 and 7 are unrecognised and fall back to 0 (R93, R119). -/
def coreSelector (c : Nat) : BitVec 3 := if c ≤ 5 then BitVec.ofNat 3 c else 0#3

/-- Decode the BatteryAndVirtualSensors byte (R118, R119). -/
def decodeSensors (p : Params) (b : Byte) : BatterySensors where
  battery := decide (byteField b p.layouts.batteryByte.battery = 1)
  core := coreSelector (byteField b p.layouts.batteryByte.core)
  surface := BitVec.ofNat 2 (byteField b p.layouts.batteryByte.surface)
  ambient := BitVec.ofNat 2 (byteField b p.layouts.batteryByte.ambient)

/-- BDEC (R119). -/
def execBdec (b : Byte) (s : State) : Answer := reply (.ok (.sensors (decodeSensors s.params b))) s

/-- Decode the HopCount byte; the bits outside the field are ignored (R120, R121). -/
def decodeHop (p : Params) (b : Byte) : Byte := BitVec.ofNat 8 (byteField b p.layouts.hopByte)

/-- HDEC (R121). -/
def execHdec (b : Byte) (s : State) : Answer := reply (.ok (.hop (decodeHop s.params b))) s

/-! ### FoodSafeParameters -/

/-- The centi value of a packed field with `lsb` centi per raw step (R90, R123). -/
def centiField (lsb : Nat) (buf : Buffer) (f : FieldPlace) : S32 := BitVec.ofNat 32 (lsb * fieldAt buf f)

/-- The parameters of 10 packed bytes (R122, R123). -/
def unpackFoodSafe (p : Params) (buf : Buffer) : FoodSafe where
  sel := BitVec.ofNat 16 (fieldAt buf p.layouts.foodSafe.sel)
  thr := centiField p.consts.tempLsbCenti buf p.layouts.foodSafe.thr
  z := centiField p.consts.tempLsbCenti buf p.layouts.foodSafe.z
  ref := centiField p.consts.tempLsbCenti buf p.layouts.foodSafe.ref
  d := centiField p.consts.tempLsbCenti buf p.layouts.foodSafe.d
  lr := centiField p.consts.lrLsbCenti buf p.layouts.foodSafe.lr

/-- Decode food-safe parameters; absent below 10 bytes (R123). -/
def decodeFoodSafe (p : Params) (buf : Buffer) : Option FoodSafe :=
  if buf.length < 10 then none else some (unpackFoodSafe p (buf.take 10))

/-- FSDEC (R123); ABSENT for a dropped input (R280, log 9). -/
def execFsdec (buf : Buffer) (s : State) : Answer :=
  replyOption .foodSafe ((received s.params buf).bind (decodeFoodSafe s.params)) s

/-- The raw code of a centi value: round, then mask; a negative quotient takes its two's complement low bits (R124). -/
def rawField (w lsb : Nat) (v : S32) : Nat := (BitVec.ofInt w (rnd v.toInt lsb)).toNat

/-- OR the raw code of a centi value into its place (R124). -/
def insertCenti (lsb : Nat) (V : Nat) (f : FieldPlace) (v : S32) : Nat := insertAt V f (rawField f.width lsb v)

/-- The 80-bit value of the parameters (R124). -/
def packFoodSafe (p : Params) (v : FoodSafe) : Nat :=
  let V := insertAt 0 p.layouts.foodSafe.sel v.sel.toNat
  let V := insertCenti p.consts.tempLsbCenti V p.layouts.foodSafe.thr v.thr
  let V := insertCenti p.consts.tempLsbCenti V p.layouts.foodSafe.z v.z
  let V := insertCenti p.consts.tempLsbCenti V p.layouts.foodSafe.ref v.ref
  let V := insertCenti p.consts.tempLsbCenti V p.layouts.foodSafe.d v.d
  insertCenti p.consts.lrLsbCenti V p.layouts.foodSafe.lr v.lr

/-- Encode food-safe parameters into 10 bytes (R124). -/
def encodeFoodSafe (p : Params) (v : FoodSafe) : Buffer := leBytes 10 (packFoodSafe p v)

/-- FSENC (R124). -/
def execFsenc (v : FoodSafe) (s : State) : Answer := reply (.ok (.bytes (encodeFoodSafe s.params v))) s

/-! ### Advertising record -/

/-- Decode an advertising payload: absent below ADV_MIN_LEN bytes, for another vendor and for another product; each
optional byte counts when the buffer reaches it, with the defaults of R127 (R67, R126). -/
def decodeAdvert (p : Params) (buf : Buffer) : Option AdvRecord :=
  if buf.length < p.consts.advMinLen then none
  else if leAt 2 buf 0 ≠ p.vendorId.toNat then none
  else if byteAt buf 2 ≠ p.productProbe then none
  else some
    { product := byteAt buf 2
      serial := BitVec.ofNat 32 (beAt 4 buf 3)
      temps := unpackTemps (slice buf 7 13)
      modeId := if buf.length > 20 then decodeModeIdentity p (byteAt buf 20) else ⟨0#3, 0#3, .normal⟩
      sensors := if buf.length > 21 then decodeSensors p (byteAt buf 21) else ⟨false, 0#3, 0#2, 0#2⟩
      hop := if buf.length > 22 then some (decodeHop p (byteAt buf 22)) else none }

/-- ADEC (R126); ABSENT for a dropped input (R280, log 9). -/
def execAdec (buf : Buffer) (s : State) : Answer :=
  replyOption .advert ((received s.params buf).bind (decodeAdvert s.params)) s

end Sys2Proof.Machine
end

