-- ==== Sys2Proof/Machine/Frame.lean ====
section
/-! DEFINITION. Unit FRAME (spec/41_frame.md): CRC16, request frames, the response parser. Pure (R150). -/

namespace Sys2Proof.Machine

/-! ### CRC (R151) -/

/-- The low `n` bits of `v` in reversed order: `refl_n(v)`. -/
def reflectBits : Nat → Nat → Nat
  | 0, _ => 0
  | n + 1, v => (v % 2) * 2 ^ n + reflectBits n (v / 2)

/-- One shift of the CRC register. -/
def crcShift (p : Params) (c : U16) : U16 := if c.msb then (c <<< 1) ^^^ p.crcPoly else c <<< 1

/-- `n` shifts of the CRC register. -/
def crcShifts (p : Params) : Nat → U16 → U16
  | 0, c => c
  | n + 1, c => crcShifts p n (crcShift p c)

/-- One message byte into the CRC register. -/
def crcByte (p : Params) (c : U16) (b : Byte) : U16 :=
  let b := if p.crcRefIn then BitVec.ofNat 8 (reflectBits 8 b.toNat) else b
  crcShifts p 8 (c ^^^ (b.setWidth 16 <<< 8))

/-- What is done with the register at the end: output reflection and the final xor. -/
def crcFinish (p : Params) (c : U16) : U16 :=
  (if p.crcRefOut then BitVec.ofNat 16 (reflectBits 16 c.toNat) else c) ^^^ p.crcXorOut

/-- The checksum of a byte string (R151). -/
def crc16 (p : Params) (buf : Buffer) : U16 := crcFinish p (buf.foldl (crcByte p) p.crcInit)

/-- CRC16 (R151). -/
def execCrc16 (buf : Buffer) (s : State) : Answer := reply (.ok (.crc (crc16 s.params buf))) s

/-! ### Requests (R153) -/

/-- The request frame: sync, CRC low byte first, then type, length and payload (R68, R152, R153). The header takes
REQ_HDR_LEN bytes; any beyond the six of its fields would be 0 (R63). -/
def buildFrame (p : Params) (mtype : Byte) (payload : Buffer) : Buffer :=
  let spare := List.replicate (p.consts.reqHdrLen - 6) 0#8
  let body := mtype :: BitVec.ofNat 8 payload.length :: (spare ++ payload)
  p.consts.sync0 :: p.consts.sync1 :: (leBytes 2 (crc16 p body).toNat ++ body)

/-- FBUILD: a payload above 255 bytes is answered ILLEGAL and nothing is built (R153, R283). -/
def execFbuild (mtype : Byte) (payload : Buffer) (s : State) : Answer :=
  if payload.length > 255 then .next (answerIllegal s)
  else reply (.ok (.bytes (buildFrame s.params mtype payload))) s

/-! ### Responses (R156) -/

/-- `decode_payload(mtype, success, p)`: absent below the type's minimum (R155, R157). With a replaced minimum below the bytes
a record reads, the missing ones read as 0 (DESIGN CHOICE, log 23). -/
def decodePayload (p : Params) (mtype : Byte) (success : Bool) (payload : Buffer) : Option Record :=
  if mtype = p.mtLog then
    if payload.length < p.logMinLen then none
    else some ⟨p.mtLog, success, .log (BitVec.ofNat 32 (leAt 4 payload 0)) (unpackTemps (slice payload 4 13))⟩
  else if mtype = p.mtSession then
    if payload.length < p.consts.sessionMinLen then none
    else some ⟨p.mtSession, success,
      .session (BitVec.ofNat 32 (leAt 4 payload 0)) (BitVec.ofNat 16 (leAt 2 payload 4))⟩
  else if mtype = p.mtSetId ∨ mtype = p.mtSetColor ∨ mtype = p.mtSetPred then some ⟨mtype, success, .ack⟩
  else if mtype = p.mtOverTemp then
    if payload.length < p.consts.overTempMinLen then none
    else some ⟨p.mtOverTemp, success, .overTemp (decide (byteAt payload 0 ≠ 0#8))⟩
  else none

/-- The frame at the cursor, of which `rest` are the remaining bytes: `none` is the `stop` of R156, `some (r, n)` an
accepted frame of `n` bytes with its record, absent when the frame is ignored (R159). The header takes RSP_HDR_LEN bytes,
the last of them the payload length (R69). The length test comes before the CRC (90_conflicts.md C6). -/
def parseFrame (p : Params) (rest : Buffer) : Option (Option Record × Nat) :=
  let hdr := p.consts.rspHdrLen
  if rest.length < hdr then none
  else if byteAt rest 0 ≠ p.consts.sync0 ∨ byteAt rest 1 ≠ p.consts.sync1 then none
  else if byteAt rest 4 ∉ p.messageTypes then none
  else
    let n := (byteAt rest (hdr - 1)).toNat
    if rest.length < hdr + n then none
    else if (crc16 p (slice rest 4 (hdr + n - 4))).toNat ≠ leAt 2 rest 2 then none
    else some (decodePayload p (byteAt rest 4) (decide (byteAt rest 5 ≠ 0#8)) (slice rest hdr n), hdr + n)

/-- The loop of R156 from a cursor on. A round stops or moves the cursor at least a header on, so `fuel` above the number
of remaining bytes is never used up (with a replaced RSP_HDR_LEN of 0 the fuel bounds the loop, log 21). -/
def parseFrom (p : Params) : Nat → Buffer → Nat → List Record × Nat
  | 0, _, cursor => ([], cursor)
  | fuel + 1, rest, cursor =>
    match parseFrame p rest with
    | none => ([], cursor)
    | some (r, n) =>
      let (records, last) := parseFrom p fuel (rest.drop n) (cursor + n)
      (r.toList ++ records, last)

/-- The records of a buffer and the final cursor (R156). -/
def parseFrames (p : Params) (buf : Buffer) : List Record × Nat := parseFrom p (buf.length + 1) buf 0

/-- The records and the final cursor of a delivery (R156); of a dropped one no record and cursor 0 (R280, log 9). -/
def parseDelivery (p : Params) (buf : Buffer) : List Record × Nat :=
  match received p buf with
  | some buf => parseFrames p buf
  | none => ([], 0)

/-- FPARSE (R156). -/
def execFparse (buf : Buffer) (s : State) : Answer :=
  reply (.ok (.parsed (parseDelivery s.params buf).1 (parseDelivery s.params buf).2)) s

end Sys2Proof.Machine
end

