-- ==== Sys2Proof/Machine/Log.lean ====
section
/-! DEFINITION. Unit LOG, the log synchronization engine (spec/42_logsync.md). No operation here depends on time (R180). -/

namespace Sys2Proof.Machine

/-! ### Gap detection (R185) -/

/-- The least number from `n` on that is no sequence number of the log, within `fuel` further numbers. -/
def leastFrom : Nat → Nat → TempLog → Nat
  | 0, n, _ => n
  | fuel + 1, n, l => if TempLog.hasSeq l n then leastFrom fuel (n + 1) l else n

/-- The greatest sequence number of a log: `last(L)` (R185); 0 for the empty log. -/
def greatestSeq : TempLog → Nat
  | [] => 0
  | e :: l => max e.seq.toNat (greatestSeq l)

/-- `first_missing`: the least number of `[min, max]` not stored. A log of `k` entries holds no `k + 1` numbers, so `k`
further numbers are enough to search. The edge rule hides `max` when it alone is missing and the last stored number is
`max - 1` (R185, 90_conflicts.md C2). -/
def firstMissing (l : TempLog) (min max : U32) : Option U32 :=
  if max.toNat < min.toNat then none
  else
    let m := leastFrom l.length min.toNat l
    if max.toNat < m then none
    else if l ≠ [] ∧ m = max.toNat ∧ greatestSeq l + 1 = max.toNat then none
    else some (BitVec.ofNat 32 m)

/-- `cap_request(m, max)`: the upper bound of the request (R186). -/
def capRequest (p : Params) (m max : U32) : U32 :=
  if max.toNat - m.toNat ≥ p.consts.maxLogRequest then BitVec.ofNat 32 (m.toNat + p.consts.maxLogRequest - 1) else max

/-! ### Meanings -/

/-- LSESS: a first or different session forgets the outstanding request (R181). -/
def execLsess (id : U32) (periodMs : U16) (s : State) : Answer :=
  reply (.ok .empty)
    { s with
      reqOut := if !s.sessValid || decide (s.sessId ≠ id) then false else s.reqOut
      sessValid := true
      sessId := id
      sessPeriodMs := periodMs }

/-- Retirement by arrival: the frame that carries `req_max` (R189). -/
def retire (seq : U32) (s : State) : State :=
  { s with reqOut := if s.reqOut && decide (seq = s.reqMax) then false else s.reqOut }

/-- LFRAME: append, then the retirement test, made even when the point was dropped (R184). -/
def execLframe (seq : U32) (t : RawTemps) (s : State) : Answer :=
  reply (.ok .empty) (retire seq (appendPoint seq (maskTemps t) s))

/-- The request frame for records `lo` to `hi` (R188). -/
def requestFrame (p : Params) (lo hi : U32) : Buffer :=
  buildFrame p p.mtLog (leBytes 4 lo.toNat ++ leBytes 4 hi.toNat)

/-- The evaluation of a status: no gap retires the request; a gap emits one request unless one is outstanding (R187). -/
def evaluateGap (min max : U32) (s : State) : Answer :=
  match firstMissing (curLog s) min max with
  | none => reply (.ok (.status true none)) { s with upToDate := true, reqOut := false }
  | some m =>
    if s.reqOut then reply (.ok (.status false none)) { s with upToDate := false }
    else
      let hi := capRequest s.params m max
      reply (.ok (.status false (some (m, hi))))
        (transmit (requestFrame s.params m hi) { s with upToDate := false, reqOut := true, reqMin := m, reqMax := hi })

/-- LSTAT: in mode NORMAL record the point under `max`, then evaluate (R187). -/
def execLstat (min max : U32) (t : RawTemps) (mode : OpMode) (s : State) : Answer :=
  evaluateGap min max (if mode = .normal then appendPoint max (maskTemps t) s else s)

/-- LMISS: a pure query (R185). -/
def execLmiss (min max : U32) (s : State) : Answer := replyOption .missing (firstMissing (curLog s) min max) s

/-- LUTD (R192). -/
def execLutd (s : State) : Answer := reply (.ok (.upToDate s.upToDate)) s

end Sys2Proof.Machine
end

