-- ==== Sys2Proof/Machine/Smoother.lean ====
section
/-! DEFINITION. Unit SMOOTH, the prediction smoother (spec/44_smoother.md), with its two internal events. -/

namespace Sys2Proof.Machine

/-! ### Value functions -/

/-- `disp(ms)`: the displayed whole seconds of a countdown (R236). -/
def disp (ms : Int) : U32 := if ms ≤ 0 then 0#32 else BitVec.ofNat 32 (Nat.min (ms.toNat / 1000) (2 ^ 32 - 1))

/-- `round15(s)` for a step of LOWRES_STEP_S seconds: to the nearest multiple, ties up. With 15, remainders 0 to 7 go down
and 8 to 14 up (R237). -/
def round15 (p : Params) (n : Nat) : Nat :=
  let r := n % p.consts.lowresStepS
  if 2 * r ≥ p.consts.lowresStepS then n + (p.consts.lowresStepS - r) else n - r

/-- `pct(core, start, sp)`: percent through cook (R241). -/
def pct (core start sp : Int) : BitVec 7 :=
  if core ≤ start then 0#7
  else if core ≥ sp then 100#7
  else BitVec.ofInt 7 (max 0 (min 100 ((200 * (core - start) + (sp - start)) / (2 * (sp - start)))))

/-! ### The countdown (R235, R238, R239) -/

/-- The low-resolution regime: a new rounded display on every LOWRES_EVERY-th sample or when there is none to keep
(R238). -/
def lowRes (ps seq : U32) (s : State) : U32 × State :=
  let secs := round15 s.params ps.toNat
  if !havePrev s || decide (seq.toNat % s.params.consts.lowresEvery = 0) then
    (BitVec.ofNat 32 secs, { s with currentMs := wrapLin s.params (1000 * secs) })
  else (s.prevInfo.secs, s)

/-- `max(ps - REPORT_MS / 1000, 0)` (R239). The quotient is exact for the value R5 prints; of a replaced one the model takes
the floor: DESIGN CHOICE, log 24, unsafe. -/
def targetOf (p : Params) (ps : U32) : Nat := ps.toNat - p.consts.reportMs / 1000

/-- The per-tick decrement that walks the countdown from its current value to the target by the next report: truncated
toward zero (R239, D36). The number of ticks REPORT_MS / TICK_MS is exact for the values R5 prints; of replaced ones the
model takes the floor: DESIGN CHOICE, log 24, unsafe. -/
def walkStep (p : Params) (currentMs : Int) (target : Nat) : Int :=
  Int.tdiv (currentMs - 1000 * (target : Int)) (p.consts.reportMs / p.consts.tickMs : Nat)

/-- The high-resolution regime: walk from the displayed countdown to the target, or start afresh (R239). -/
def highRes (ps : U32) (s : State) : U32 × State :=
  let target := targetOf s.params ps
  let s := { s with targetSeconds := BitVec.ofNat 32 target }
  let s :=
    if walks s then { s with stepPerTick := wrapLin s.params (walkStep s.params s.currentMs target) }
    else { s with currentMs := wrapLin s.params (1000 * ps.toNat), stepPerTick := wrapLin s.params s.params.consts.tickMs }
  (disp s.currentMs, s)

/-- `seconds_remaining`: the countdown, whether the ticker starts, and the linearization registers (R235). -/
def secondsRemaining (state : PredState) (ps seq : U32) (s : State) : Option U32 × Bool × State :=
  if state ≠ .predicting ∨ ps.toNat > s.params.consts.maxPredS then (none, false, s)
  else if ps.toNat > s.params.consts.lowresCutoffS then (some (lowRes ps seq s).1, false, (lowRes ps seq s).2)
  else (some (highRes ps s).1, true, (highRes ps s).2)

/-! ### Update (R232) -/

/-- Store and publish a new PredictionInfo (R232, R242). With no countdown the `secs` register is a free value (R6,
log 4). -/
def storeInfo (st : PredictionStatus) (secs : Option U32) (s : State) : State :=
  let info : PredictionInfo :=
    { state := predStateOfCode st.state, mode := st.mode, ptype := st.ptype, setPoint := st.setPoint
      heatStart := st.heatStart, estCore := st.estCore
      secsValid := secs.isSome
      secs := secs.getD (freeReg 32 .secs s)
      percent := pct st.estCore.toInt st.heatStart.toInt st.setPoint.toInt }
  let s := publish (some info) { s with prevInfoValid := true, prevInfo := info }
  if secs.isSome then s else drawn s

/-- Store and publish the absent PredictionInfo of an absent status; the `prev_info` register is a free value (R234, R6,
log 4). -/
def storeAbsent (s : State) : State :=
  drawn (publish none { s with prevInfoValid := false, prevInfo := Config.freeInfo s.freeCount })

/-- The sequence number, the stale flag and the two timers of a non-duplicate update (R232, R240). -/
def armTimers (start : Bool) (seq : U32) (now : Nat) (s : State) : State :=
  { s with
    prevSeqValid := true
    prevSeq := seq
    predStale := false
    wdogArmed := true
    wdogDeadline := now + s.params.consts.predStaleMs
    tickerArmed := start
    tickerDeadline := if start then now + s.params.consts.tickMs else s.tickerDeadline }

/-- A non-duplicate update: the ticker is cancelled first, then the information is computed from the state as it was
before the call (R232, R233). -/
def updatePrediction (stPresent : Bool) (st : PredictionStatus) (seq : U32) (now : Nat) (s : State) : State :=
  let s := { s with tickerArmed := false }
  if stPresent then
    let r := secondsRemaining (predStateOfCode st.state) st.predSecs seq s
    armTimers r.2.1 seq now (storeInfo st r.1 r.2.2)
  else armTimers false seq now (storeAbsent s)

/-- PUPD: a duplicate is a no-op but for the time (R231, R232). -/
def execPupd (stPresent : Bool) (st : PredictionStatus) (seq : U32) (now : U64) (s : State) : Answer :=
  atTime now s fun s =>
    if isDuplicate seq s then reply (.ok (.published false)) s
    else reply (.ok (.published true)) (updatePrediction stPresent st seq s.timeMs s)

/-- PPCT (R241). -/
def execPpct (estCore heatStart setPoint : S32) (s : State) : Answer :=
  reply (.ok (.percent (pct estCore.toInt heatStart.toInt setPoint.toInt))) s

/-- PRD: the last published information, absent while stale (R246). -/
def execPrd (s : State) : Answer := if infoVisible s then reply (.ok (.info s.prevInfo)) s else reply .absent s

/-! ### The two timers (R243 to R245) -/

/-- One firing of the ticker (R244). -/
def tick (s : State) : State :=
  let cur := wrapLin s.params (s.currentMs - s.stepPerTick)
  let info := { s.prevInfo with secs := disp cur }
  publish (some info)
    { s with
      timeMs := max s.timeMs s.tickerDeadline
      currentMs := cur
      prevInfo := info
      tickerDeadline := s.tickerDeadline + s.params.consts.tickMs }

/-- PTICK: fires when enabled (R243, R244); otherwise it does not happen and nothing changes (log 14). It gives no
response. -/
def execPtick (s : State) : Answer := if tickEnabled s then .next (tick s) else .next s

/-- The firing of the watchdog (R245). -/
def watchdogFires (s : State) : State :=
  { s with timeMs := max s.timeMs s.wdogDeadline, tickerArmed := false, wdogArmed := false, predStale := true }

/-- PWDOG: fires when enabled (R243, R245); otherwise it does not happen and nothing changes (log 14). It gives no
response. -/
def execPwdog (s : State) : Answer := if wdogEnabled s then .next (watchdogFires s) else .next s

end Sys2Proof.Machine
end

