-- ==== Sys2Proof/Machine/System.lean ====
section
/-! DEFINITION. The system operations NOP, RST, DISC (spec/45_system.md). -/

namespace Sys2Proof.Machine

/-- NOP: changes no state, response OK (R270). -/
def execNop (s : State) : Answer := reply (.ok .empty) s

/-- The state after RST: every register as R47 gives it. The registers R47 calls unspecified hold free values (log 2), TX
and PUB are empty (R47), the recorded responses are kept (log 17), and what is outside the instance's registers (its
parameters, the agenda) is not touched. -/
def afterReset (s : State) : State :=
  { State.reset with
    sessId := freeReg 32 .sessId s
    sessPeriodMs := freeReg 16 .sessPeriodMs s
    reqMin := freeReg 32 .reqMin s
    reqMax := freeReg 32 .reqMax s
    irValue := freeReg 32 .irValue s
    irTs := clock s.params (freeReg 64 .irTs s)
    irHop := freeReg 8 .irHop s
    prevInfo := Config.freeInfo s.freeCount
    prevSeq := freeReg 32 .prevSeq s
    tickerDeadline := clock s.params (freeReg 64 .tickerDeadline s)
    wdogDeadline := clock s.params (freeReg 64 .wdogDeadline s)
    rsp := s.rsp
    agenda := s.agenda
    params := s.params
    freeCount := s.freeCount + 1 }

/-- RST: every register takes its reset value (R271, R47). -/
def execRst (s : State) : Answer := reply (.ok .empty) (afterReset s)

/-- DISC: both timers stopped and the request discarded, nothing else written (R272). -/
def execDisc (s : State) : Answer :=
  reply (.ok .empty) { s with tickerArmed := false, wdogArmed := false, reqOut := false }

end Sys2Proof.Machine
end

