-- ==== Sys2Proof/Machine/Dispatch.lean ====
section
/-! DEFINITION. The one table from operations to their meanings. -/

namespace Sys2Proof.Machine

/-- The effect of one operation or internal event on the state. -/
def exec (i : Instr) (s : State) : Host.Outcome State Fault Refusal :=
  match i with
  | .nop => Sys2Proof.Machine.execNop s
  | .rst => Sys2Proof.Machine.execRst s
  | .disc => Sys2Proof.Machine.execDisc s
  | .tdec buf => Sys2Proof.Machine.execTdec buf s
  | .tenc t => Sys2Proof.Machine.execTenc t s
  | .mdec b => Sys2Proof.Machine.execMdec b s
  | .bdec b => Sys2Proof.Machine.execBdec b s
  | .hdec b => Sys2Proof.Machine.execHdec b s
  | .fsdec buf => Sys2Proof.Machine.execFsdec buf s
  | .fsenc p => Sys2Proof.Machine.execFsenc p s
  | .adec buf => Sys2Proof.Machine.execAdec buf s
  | .fbuild mtype payload => Sys2Proof.Machine.execFbuild mtype payload s
  | .fparse buf => Sys2Proof.Machine.execFparse buf s
  | .crc16 buf => Sys2Proof.Machine.execCrc16 buf s
  | .lsess id periodMs => Sys2Proof.Machine.execLsess id periodMs s
  | .lstat min max t mode => Sys2Proof.Machine.execLstat min max t mode s
  | .lframe seq t => Sys2Proof.Machine.execLframe seq t s
  | .lmiss min max => Sys2Proof.Machine.execLmiss min max s
  | .lutd => Sys2Proof.Machine.execLutd s
  | .irqry hopPresent hop now => Sys2Proof.Machine.execIrqry hopPresent hop now s
  | .iracc value hopPresent hop now => Sys2Proof.Machine.execIracc value hopPresent hop now s
  | .irrd now => Sys2Proof.Machine.execIrrd now s
  | .pupd stPresent st seq now => Sys2Proof.Machine.execPupd stPresent st seq now s
  | .prd => Sys2Proof.Machine.execPrd s
  | .ppct estCore heatStart setPoint => Sys2Proof.Machine.execPpct estCore heatStart setPoint s
  | .ptick => Sys2Proof.Machine.execPtick s
  | .pwdog => Sys2Proof.Machine.execPwdog s

end Sys2Proof.Machine
end

