-- ==== Sys2Proof/Machine/Fetch.lean ====
section
/-! DEFINITION. What a step does with the command presented on CMD: which byte strings are operations a host may issue
(R81, R92), and which timer must fire before a command with `now` (R287). -/

namespace Sys2Proof.Machine

/-- A byte string on CMD: an operation to run, a command answered ILLEGAL, or no command at all. -/
inductive Fetched where
  | run (i : Instr)
  | illegal
  | malformed (why : DecodeError)
deriving DecidableEq, Repr

/-- The internal events, which a host cannot issue (R80, R92). -/
def isInternal (i : Instr) : Bool := decide (opcode i = 0xE0#8) || decide (opcode i = 0xE1#8)

/-- Read one command. Opcode legality is tested first (R285): an opcode outside R80 and an internal opcode are answered
ILLEGAL whatever follows them (R92). -/
def fetchCommand (bytes : Buffer) : Fetched :=
  match decode bytes with
  | .ok (i, rest) =>
    if isInternal i then .illegal
    else
      match rest with
      | [] => .run i
      | _ :: _ => .malformed .trailingBytes
  | .error (.unknownOpcode _) => .illegal
  | .error e => .malformed e

/-- The time a command carries in its `now` operand: IRQRY, IRACC, IRRD and PUPD, and no other operation (R44). -/
def operandNow (p : Params) : Instr → Option Nat
  | .irqry _ _ now => some (clock p now)
  | .iracc _ _ _ now => some (clock p now)
  | .irrd now => some (clock p now)
  | .pupd _ _ _ now => some (clock p now)
  | .nop | .rst | .disc | .tdec _ | .tenc _ | .mdec _ | .bdec _ | .hdec _ | .fsdec _ | .fsenc _ | .adec _ | .fbuild _ _
  | .fparse _ | .crc16 _ | .lsess _ _ | .lstat _ _ _ _ | .lframe _ _ | .lmiss _ _ | .lutd | .prd | .ppct _ _ _ | .ptick
  | .pwdog => none

/-- The timer event that fires before a command: one whose deadline is strictly below `now`, the earlier deadline first;
at equal deadlines either (R287 (b), (c), U2, log 13). A command without `now` waits for none (R287 (d)). -/
def dueTimer (now : Option Nat) (s : State) : Option Instr :=
  match now with
  | none => none
  | some now =>
    let tickDue := s.tickerArmed && decide (s.tickerDeadline < now)
    let wdogDue := s.wdogArmed && decide (s.wdogDeadline < now)
    if tickDue && wdogDue then
      if s.tickerDeadline < s.wdogDeadline then some .ptick
      else if s.wdogDeadline < s.tickerDeadline then some .pwdog
      else if Config.tickerFirst s.freeCount then some .ptick
      else some .pwdog
    else if tickDue then some .ptick
    else if wdogDue then some .pwdog
    else none

/-- The agenda entry that makes the next step run a table word: the timer's turn for an internal event, else the command
of exactly the bytes the operation takes. -/
def eventOfWord (nbits w : Nat) : Event :=
  match decodeTableWord nbits w with
  | some .ptick => .ticker
  | some .pwdog => .watchdog
  | some i => .command ((tableBytes nbits w).take (encode i).length)
  | none => .command (leBytes (nbits / 8) w)

end Sys2Proof.Machine
end

