-- ==== Sys2Proof/Machine/Step.lean ====
section
/-! DEFINITION. One step of one agent (R10), taken as the agenda orders them, with the time-order rule (R287). -/

namespace Sys2Proof.Machine

/-- Take the first entry off the agenda. -/
def withAgenda (rest : List Event) (s : State) : State := { s with agenda := rest }

/-- One step. With nothing on the agenda the instance holds its state (R292 (c), log 12). A timer's turn is its event. A
command runs as one atomic operation, but while a timer is due before its `now` that timer fires and the command
waits (R287 (b)). -/
def step (s : State) : Host.Outcome State Fault Refusal :=
  match s.agenda with
  | [] => .next s
  | .ticker :: rest => exec .ptick (withAgenda rest s)
  | .watchdog :: rest => exec .pwdog (withAgenda rest s)
  | .command bytes :: rest =>
    match fetchCommand bytes with
    | .malformed why => .refused (.malformedCommand why)
    | .illegal => .next (answerIllegal (withAgenda rest s))
    | .run i =>
      match dueTimer (operandNow s.params i) s with
      | some timer => exec timer (drawn s)
      | none => exec i (withAgenda rest s)

/-- The state with the operation of a table word put first on the agenda, so that the next step takes it up. -/
def State.withFetchWord (s : State) (nbits w : Nat) : State := { s with agenda := eventOfWord nbits w :: s.agenda }

end Sys2Proof.Machine
end

