-- ==== Sys2Proof/Machine/Pseudo.lean ====
section
/-! DEFINITION. The pseudo-operations of R97: host-side sequences of operations, with no encoding of their own. -/

namespace Sys2Proof.Machine

/-- ULOG seq, t (R97 (a)). -/
def expandUlog (seq : U32) (t : RawTemps) : List Instr := [.lframe seq t]

/-- USTAT min, max, t, mode, st, now (R97 (b)). -/
def expandUstat (min max : U32) (t : RawTemps) (mode : OpMode) (st : PredictionStatus) (now : U64) : List Instr :=
  [.lstat min max t mode, .pupd true st max now]

/-- The operation a record calls for in UNOTIFY; the other kinds are handed to the host (R97 (c)). -/
def recordOperation (r : Record) : Option Instr :=
  match r.body with
  | .log seq t => some (.lframe seq (widenTemps t))
  | .session id periodMs => some (.lsess id periodMs)
  | .ack => none
  | .overTemp _ => none

/-- UNOTIFY buf: FPARSE, then one operation per log or session record, in order; the success flag is not consulted
(R97 (c), R314). -/
def expandUnotify (p : Params) (buf : Buffer) : List Instr :=
  .fparse buf :: (parseDelivery p buf).1.filterMap recordOperation

end Sys2Proof.Machine
end

