-- ==== Sys2Proof/Safety.lean ====
section
/-! DEFINITION. The terms claims about runs are stated in: which registers an operation keeps, and the invariants of
spec/10_state.md. -/

namespace Sys2Proof.Machine

/-! ### Frames, unit by unit -/

/-- The LOG unit's registers are the same (R26 to R31). -/
abbrev KeepsLog (s t : State) : Prop :=
  t.sessValid = s.sessValid ∧ t.sessId = s.sessId ∧ t.sessPeriodMs = s.sessPeriodMs ∧ t.logs = s.logs ∧
    t.reqOut = s.reqOut ∧ t.reqMin = s.reqMin ∧ t.reqMax = s.reqMax ∧ t.upToDate = s.upToDate

/-- The ARB unit's registers are the same (R32). -/
abbrev KeepsArb (s t : State) : Prop :=
  t.irValid = s.irValid ∧ t.irValue = s.irValue ∧ t.irTs = s.irTs ∧ t.irHopPresent = s.irHopPresent ∧ t.irHop = s.irHop

/-- The previous information and sequence number are the same (R34, R36). -/
abbrev KeepsPrev (s t : State) : Prop :=
  t.prevInfoValid = s.prevInfoValid ∧ t.prevInfo = s.prevInfo ∧ t.prevSeqValid = s.prevSeqValid ∧ t.prevSeq = s.prevSeq

/-- The linearization registers are the same (R37). -/
abbrev KeepsCountdown (s t : State) : Prop :=
  t.targetSeconds = s.targetSeconds ∧ t.stepPerTick = s.stepPerTick ∧ t.currentMs = s.currentMs

/-- The ticker, the watchdog and the stale flag are the same (R38 to R40). -/
abbrev KeepsTimers (s t : State) : Prop :=
  t.tickerArmed = s.tickerArmed ∧ t.tickerDeadline = s.tickerDeadline ∧ t.wdogArmed = s.wdogArmed ∧
    t.wdogDeadline = s.wdogDeadline ∧ t.predStale = s.predStale

/-- The SMOOTH unit's registers are the same. -/
abbrev KeepsSmooth (s t : State) : Prop := KeepsPrev s t ∧ KeepsCountdown s t ∧ KeepsTimers s t

/-- What no operation of the TPE touches: the parameters and the agenda. -/
abbrev KeepsOutside (s t : State) : Prop := t.params = s.params ∧ t.agenda = s.agenda

/-- Nothing is emitted on TX or PUB. -/
abbrev EmitsNothing (s t : State) : Prop := t.tx = s.tx ∧ t.pub = s.pub

/-- Every register is the same, S.time_ms apart, and nothing is emitted: what a query leaves (R66). -/
abbrev KeepsAllButTime (s t : State) : Prop :=
  KeepsLog s t ∧ KeepsArb s t ∧ KeepsSmooth s t ∧ EmitsNothing s t ∧ KeepsOutside s t

/-- Exactly one response was given (R42). -/
abbrev Answers (r : Response) (s t : State) : Prop := t.rsp = s.rsp ++ [r]

/-- The state is as before but for one response: what a pure operation, a query without `now` and an ILLEGAL answer
leave (R66, R283). -/
abbrev OnlyAnswers (r : Response) (s t : State) : Prop :=
  Answers r s t ∧ KeepsAllButTime s t ∧ t.timeMs = s.timeMs ∧ t.freeCount = s.freeCount

/-- Every value R47 gives: all valid, armed and status flags 0, no log, time 0, the linearization registers 0, TX and PUB
empty. -/
abbrev HasResetValues (s : State) : Prop :=
  s.timeMs = 0 ∧ s.sessValid = false ∧ s.logs = [] ∧ s.reqOut = false ∧ s.upToDate = false ∧ s.irValid = false ∧
    s.irHopPresent = false ∧ s.prevInfoValid = false ∧ s.prevSeqValid = false ∧ s.targetSeconds = 0#32 ∧
    s.stepPerTick = 0 ∧ s.currentMs = 0 ∧ s.tickerArmed = false ∧ s.wdogArmed = false ∧ s.predStale = false ∧
    s.tx = [] ∧ s.pub = []

/-! ### Numbers -/

/-- `q` is `n / d` rounded to the nearest integer, ties away from zero (R8): the inequalities that say so for each sign
of `n`. -/
abbrev RoundsTo (n : Int) (d : Nat) (q : Int) : Prop :=
  (0 ≤ n → 0 ≤ q ∧ 2 * d * q ≤ 2 * n + d ∧ 2 * n + d < 2 * d * (q + 1)) ∧
    (n < 0 → q ≤ 0 ∧ 2 * d * (-q) ≤ 2 * (-n) + d ∧ 2 * (-n) + d < 2 * d * (-q + 1))

/-- The bits of a place of a layout in a number (R62). -/
abbrev bitsAt (V : Nat) (f : FieldPlace) : Nat := V / 2 ^ f.lo % 2 ^ f.width

/-- Every bit below `n` of `V` that belongs to no field of the layout is 0 (R63). -/
abbrev RestIsZero (V n : Nat) (fs : List FieldPlace) : Prop :=
  ∀ j, j < n → (∀ f ∈ fs, ¬ (f.lo ≤ j ∧ j < f.lo + f.width)) → V.testBit j = false

/-! ### What is on the wire and in the log -/

/-- The parts of a response frame (R69): message type, success byte, payload. -/
structure ResponseParts where
  mtype : Byte
  success : Byte
  payload : Buffer
deriving DecidableEq, Repr

/-- The bytes of a valid response frame: sync, CRC low byte first over type, success, length and payload (R69, R152). -/
def responseFrame (p : Params) (f : ResponseParts) : Buffer :=
  let body := f.mtype :: f.success :: BitVec.ofNat 8 f.payload.length :: f.payload
  [p.consts.sync0, p.consts.sync1] ++ leBytes 2 (crc16 p body).toNat ++ body

/-- The record a valid response frame stands for, absent when its payload is too short for its type (R157, R159). -/
def frameRecord (p : Params) (f : ResponseParts) : Option Record :=
  decodePayload p f.mtype (decide (f.success ≠ 0#8)) f.payload

/-- The store has room for a new point of the current session (R29, R183): the session's log is below LOG_DEPTH, and it
exists or the number of logs is below MAX_SESSIONS. -/
abbrev HasRoom (s : State) : Prop :=
  (∀ b, s.params.logDepth = some b → (curLog s).length < b) ∧
    (∀ b, s.params.maxSessions = some b → s.logs.log s.sessId ≠ none ∨ s.logs.length < b)

/-- A sequence number stored in the current session's log (R185). -/
def Stored (s : State) (n : Nat) : Prop := ∃ e ∈ curLog s, e.seq.toNat = n

/-! ### Invariants -/

/-- The constants of the source and of the spec have the values that R5 prints. -/
abbrev ConstInv (s : State) : Prop := s.params.consts = tableConsts

/-- The log store keeps its canonical form (R28). -/
abbrev LogStoreInv (s : State) : Prop := Memory.wf s.logs

/-- An outstanding request spans at most MAX_LOG_REQUEST records (R30, R186). -/
abbrev RequestInv (s : State) : Prop :=
  s.reqOut = true → s.reqMin.toNat ≤ s.reqMax.toNat ∧ s.reqMax.toNat - s.reqMin.toNat < s.params.consts.maxLogRequest

/-- An accepted instant read is not later than the latest time (R33). -/
abbrev ArbInv (s : State) : Prop := s.irValid = true → s.irTs ≤ s.timeMs

/-- R41 (a): what an armed ticker implies. -/
abbrev TickerInv (s : State) : Prop :=
  s.tickerArmed = true →
    s.wdogArmed = true ∧ s.prevInfoValid = true ∧ s.prevInfo.state = .predicting ∧ s.prevInfo.secsValid = true

/-- R41 (b): a displayed countdown is `disp(current_ms)`. -/
abbrev DisplayInv (s : State) : Prop :=
  s.prevInfoValid = true → s.prevInfo.secsValid = true → s.prevInfo.secs = disp s.currentMs

/-- R41 (c): the ticker's deadline is at most one tick past the watchdog's. -/
abbrev DeadlineInv (s : State) : Prop :=
  s.tickerArmed = true → s.wdogArmed = true → s.tickerDeadline ≤ s.wdogDeadline + s.params.consts.tickMs

/-- R41 (d): a previous information has a previous sequence number. -/
abbrev SeqInv (s : State) : Prop := s.prevInfoValid = true → s.prevSeqValid = true

/-- R41, all four. -/
abbrev SmoothInv (s : State) : Prop := TickerInv s ∧ DisplayInv s ∧ DeadlineInv s ∧ SeqInv s

/-- No armed timer lies in the past (from R287 (b)); the watchdog of a stale prediction has fired (R40, R245). -/
abbrev TimeInv (s : State) : Prop :=
  (s.tickerArmed = true → s.timeMs ≤ s.tickerDeadline) ∧ (s.wdogArmed = true → s.timeMs ≤ s.wdogDeadline) ∧
    (s.predStale = true → s.tickerArmed = false ∧ s.wdogArmed = false)

/-- R45: the last event on PUB is the previous information, absent when there is none. -/
abbrev PubInv (s : State) : Prop :=
  ∀ e, s.pub.getLast? = some e → e = if s.prevInfoValid then some s.prevInfo else none

/-- The linearization registers hold signed values of LIN_W bits (R5, R37). -/
abbrev WidthInv (s : State) : Prop :=
  wrapLin s.params s.currentMs = s.currentMs ∧ wrapLin s.params s.stepPerTick = s.stepPerTick

/-- Every invariant together. -/
abbrev AllInv (s : State) : Prop :=
  ConstInv s ∧ WidthInv s ∧ LogStoreInv s ∧ RequestInv s ∧ ArbInv s ∧ SmoothInv s ∧ TimeInv s ∧ PubInv s

end Sys2Proof.Machine
end

