-- ==== Sys2Proof/Certificates/Slice0/Obligations.lean ====
section
/-! DEFINITION. The statements for the provers, from the numbered rules of spec/. Where a rule's numbers are constants of the
table of R5, the premise is that they have the values it prints (`ConstInv`, or the same of a parameter table), which holds
after reset (`ResetMeetsInvariants`) and is kept by every step (`WhoWritesWhat`). The OPEN parameters are free throughout. -/

open Sys2Proof Sys2Proof.Machine

/-! ### System operations -/

/-- R270: NOP changes no state, emits nothing, and answers OK. -/
def Obligations.NopOnlyAnswers : Prop :=
  ∀ s, ∃ t, exec .nop s = .next t ∧ OnlyAnswers (.ok .empty) s t

/-- R271: after RST every register R47 gives a value for has it; TX and PUB are empty. The parameters and the agenda,
which are not registers, stay; that earlier responses stay recorded is the model's choice (log 17). -/
def Obligations.RstGivesResetValues : Prop :=
  ∀ s, ∃ t, exec .rst s = .next t ∧ HasResetValues t ∧ Answers (.ok .empty) s t ∧ KeepsOutside s t

/-- R47: the state after power-on has every value the rule gives, and after RST too. -/
def Obligations.PowerOnAndRstHaveResetValues : Prop :=
  HasResetValues State.reset ∧ ∀ s t, exec .rst s = .next t → HasResetValues t

/-- R272: DISC clears `ticker_armed`, `wdog_armed` and `req_out`, writes nothing else, and leaves no timer enabled. -/
def Obligations.DiscClearsThreeBits : Prop :=
  ∀ s, ∃ t, exec .disc s = .next t ∧ t.tickerArmed = false ∧ t.wdogArmed = false ∧ t.reqOut = false ∧
    tickEnabled t = false ∧ wdogEnabled t = false ∧
    Answers (.ok .empty) s t ∧ t.timeMs = s.timeMs ∧
    t.sessValid = s.sessValid ∧ t.sessId = s.sessId ∧ t.sessPeriodMs = s.sessPeriodMs ∧ t.logs = s.logs ∧
    t.reqMin = s.reqMin ∧ t.reqMax = s.reqMax ∧ t.upToDate = s.upToDate ∧ KeepsArb s t ∧ KeepsPrev s t ∧
    KeepsCountdown s t ∧ t.tickerDeadline = s.tickerDeadline ∧ t.wdogDeadline = s.wdogDeadline ∧
    t.predStale = s.predStale ∧ EmitsNothing s t ∧ KeepsOutside s t

/-! ### CODEC -/

/-- R112: TDEC is ABSENT below 13 bytes, else lane `i` is bits `13 i + 12` to `13 i` of the first 13 bytes read as one
little-endian number. Nothing else changes (R110). -/
def Obligations.TdecReadsFields : Prop :=
  ∀ buf s,
    (buf.length < 13 → ∃ t, exec (.tdec buf) s = .next t ∧ OnlyAnswers .absent s t) ∧
    (13 ≤ buf.length → ∃ t ts, exec (.tdec buf) s = .next t ∧ OnlyAnswers (.ok (.temps ts)) s t ∧
      let V := leNat (buf.take 13)
      ts.t0.toNat = V % 8192 ∧ ts.t1.toNat = V / 2 ^ 13 % 8192 ∧ ts.t2.toNat = V / 2 ^ 26 % 8192 ∧
        ts.t3.toNat = V / 2 ^ 39 % 8192 ∧ ts.t4.toNat = V / 2 ^ 52 % 8192 ∧ ts.t5.toNat = V / 2 ^ 65 % 8192 ∧
        ts.t6.toNat = V / 2 ^ 78 % 8192 ∧ ts.t7.toNat = V / 2 ^ 91 % 8192)

/-- R111: the byte column of the layout table, lane by lane. -/
def Obligations.TemperatureLanesByByte : Prop :=
  ∀ buf ts, decodeTemps buf = some ts →
    let b := fun k => (byteAt buf k).toNat
    ts.t0.toNat = b 0 ||| (b 1 &&& 0x1F) <<< 8 ∧
    ts.t1.toNat = b 1 >>> 5 ||| b 2 <<< 3 ||| (b 3 &&& 0x03) <<< 11 ∧
    ts.t2.toNat = b 3 >>> 2 ||| (b 4 &&& 0x7F) <<< 6 ∧
    ts.t3.toNat = b 4 >>> 7 ||| b 5 <<< 1 ||| (b 6 &&& 0x0F) <<< 9 ∧
    ts.t4.toNat = b 6 >>> 4 ||| b 7 <<< 4 ||| (b 8 &&& 0x01) <<< 12 ∧
    ts.t5.toNat = b 8 >>> 1 ||| (b 9 &&& 0x3F) <<< 7 ∧
    ts.t6.toNat = b 9 >>> 6 ||| b 10 <<< 2 ||| (b 11 &&& 0x07) <<< 10 ∧
    ts.t7.toNat = b 11 >>> 3 ||| b 12 <<< 5

/-- R113: TENC answers the 13 bytes whose little-endian value is the sum of the operands, each taken modulo 8192, at their
places. -/
def Obligations.TencPacksMaskedCodes : Prop :=
  ∀ (r : RawTemps) s, ∃ t buf, exec (.tenc r) s = .next t ∧ OnlyAnswers (.ok (.bytes buf)) s t ∧ buf.length = 13 ∧
    leNat buf = r.t0.toNat % 8192 + 2 ^ 13 * (r.t1.toNat % 8192) + 2 ^ 26 * (r.t2.toNat % 8192) +
      2 ^ 39 * (r.t3.toNat % 8192) + 2 ^ 52 * (r.t4.toNat % 8192) + 2 ^ 65 * (r.t5.toNat % 8192) +
      2 ^ 78 * (r.t6.toNat % 8192) + 2 ^ 91 * (r.t7.toNat % 8192)

/-- R115: decoding what was encoded, encoding what was decoded, and the value of the raw code of a representable value are
each the identity. -/
def Obligations.TemperatureRoundTrips : Prop :=
  (∀ t : TempSet, decodeTemps (encodeTemps t) = some t) ∧
  (∀ b : Buffer, b.length = 13 → (decodeTemps b).map encodeTemps = some b) ∧
  (∀ p : Params, p.consts = tableConsts → ∀ c,
    (∃ r : RawCode, c = 5 * (r.toNat : Int) + p.tempOffsetCenti) ↔ (tempRaw p c).isSome = true) ∧
  (∀ p c r, tempRaw p c = some r → tempCenti p r = c)

/-- R117, R119, R121: every byte value decodes; mode, colour and id; battery, core with 6 and 7 read as 0, surface and
ambient; hop. Each field is read at its place of the instance's layout (R116, R118, R120, OPEN by D11 to D13), for every
layout whose fields fit and share no bit. Nothing else changes. -/
def Obligations.PackedBytesDecode : Prop :=
  ∀ (b : Byte) s, s.params.layouts.wf = true →
    (∃ t m, exec (.mdec b) s = .next t ∧ OnlyAnswers (.ok (.modeIdentity m)) s t ∧
      (opModeCode m.mode).toNat = bitsAt b.toNat s.params.layouts.modeByte.mode ∧
      m.color.toNat = bitsAt b.toNat s.params.layouts.modeByte.color ∧
      m.id.toNat = bitsAt b.toNat s.params.layouts.modeByte.id) ∧
    (∃ t x, exec (.bdec b) s = .next t ∧ OnlyAnswers (.ok (.sensors x)) s t ∧
      (x.battery = true ↔ bitsAt b.toNat s.params.layouts.batteryByte.battery = 1) ∧
      (bitsAt b.toNat s.params.layouts.batteryByte.core ≤ 5 →
        x.core.toNat = bitsAt b.toNat s.params.layouts.batteryByte.core) ∧
      (5 < bitsAt b.toNat s.params.layouts.batteryByte.core → x.core = 0#3) ∧
      x.surface.toNat = bitsAt b.toNat s.params.layouts.batteryByte.surface ∧
      x.ambient.toNat = bitsAt b.toNat s.params.layouts.batteryByte.ambient) ∧
    (∃ t h, exec (.hdec b) s = .next t ∧ OnlyAnswers (.ok (.hop h)) s t ∧
      h.toNat = bitsAt b.toNat s.params.layouts.hopByte)

/-- R123: FSDEC is ABSENT below 10 bytes, else each field at its place of the layout (R122, OPEN by D14), scaled to centi:
5 per raw step, 10 for the log reduction. A buffer longer than RX_MAX is dropped (R280): ABSENT (DEDUCED, log 9). -/
def Obligations.FsdecReadsFields : Prop :=
  ∀ buf s, ConstInv s → s.params.layouts.wf = true →
    ((∀ n, s.params.rxMax = some n → buf.length ≤ n) →
      (buf.length < 10 → ∃ t, exec (.fsdec buf) s = .next t ∧ OnlyAnswers .absent s t) ∧
      (10 ≤ buf.length → ∃ t p, exec (.fsdec buf) s = .next t ∧ OnlyAnswers (.ok (.foodSafe p)) s t ∧
        let V := leNat (buf.take 10)
        p.sel.toNat = bitsAt V s.params.layouts.foodSafe.sel ∧
          p.thr.toInt = 5 * (bitsAt V s.params.layouts.foodSafe.thr : Nat) ∧
          p.z.toInt = 5 * (bitsAt V s.params.layouts.foodSafe.z : Nat) ∧
          p.ref.toInt = 5 * (bitsAt V s.params.layouts.foodSafe.ref : Nat) ∧
          p.d.toInt = 5 * (bitsAt V s.params.layouts.foodSafe.d : Nat) ∧
          p.lr.toInt = 10 * (bitsAt V s.params.layouts.foodSafe.lr : Nat))) ∧
    (∀ n, s.params.rxMax = some n → n < buf.length →
      ∃ t, exec (.fsdec buf) s = .next t ∧ OnlyAnswers .absent s t)

/-- R124, R8: FSENC rounds each value to its step, to the nearest and ties away from zero, and only then masks: a quotient
outside the field wraps, a negative one as two's complement. The 10 bytes hold each code at its place of the layout (R122,
OPEN by D14), and 0 in every other bit. -/
def Obligations.FsencRoundsThenMasks : Prop :=
  ∀ (p : FoodSafe) s, ConstInv s → s.params.layouts.wf = true →
    ∃ t buf, exec (.fsenc p) s = .next t ∧ OnlyAnswers (.ok (.bytes buf)) s t ∧ buf.length = 10 ∧
    ∃ thr z ref d lr : Int,
      RoundsTo p.thr.toInt 5 thr ∧ RoundsTo p.z.toInt 5 z ∧ RoundsTo p.ref.toInt 5 ref ∧ RoundsTo p.d.toInt 5 d ∧
      RoundsTo p.lr.toInt 10 lr ∧
      bitsAt (leNat buf) s.params.layouts.foodSafe.sel = p.sel.toNat % 2 ^ s.params.layouts.foodSafe.sel.width ∧
      (bitsAt (leNat buf) s.params.layouts.foodSafe.thr : Int) = thr % 8192 ∧
      (bitsAt (leNat buf) s.params.layouts.foodSafe.z : Int) = z % 8192 ∧
      (bitsAt (leNat buf) s.params.layouts.foodSafe.ref : Int) = ref % 8192 ∧
      (bitsAt (leNat buf) s.params.layouts.foodSafe.d : Int) = d % 8192 ∧
      (bitsAt (leNat buf) s.params.layouts.foodSafe.lr : Int) = lr % 256 ∧
      RestIsZero (leNat buf) 80 s.params.layouts.foodSafe.places

/-- R125, for every layout of the food-safe buffer (R122, OPEN by D14): (a) re-encoding a decoded buffer whose reserved bits
are 0 gives it back; (b) in-range operands come back within 2 centi, the log reduction within 5, and the selector without
the bits its field has no room for (none when it has 16); (c) a second round trip changes nothing. -/
def Obligations.FoodSafeRoundTrips : Prop :=
  ∀ c : Params, c.consts = tableConsts → c.layouts.wf = true →
    (∀ b : Buffer, b.length = 10 → RestIsZero (leNat b) 80 c.layouts.foodSafe.places →
      (decodeFoodSafe c b).map (encodeFoodSafe c) = some b) ∧
    (∀ p : FoodSafe, (∀ v ∈ [p.thr, p.z, p.ref, p.d], 0 ≤ v.toInt ∧ v.toInt ≤ 40957) →
      0 ≤ p.lr.toInt → p.lr.toInt ≤ 2554 →
      ∃ q, decodeFoodSafe c (encodeFoodSafe c p) = some q ∧
        q.sel.toNat = p.sel.toNat % 2 ^ c.layouts.foodSafe.sel.width ∧
        |q.thr.toInt - p.thr.toInt| ≤ 2 ∧ |q.z.toInt - p.z.toInt| ≤ 2 ∧ |q.ref.toInt - p.ref.toInt| ≤ 2 ∧
        |q.d.toInt - p.d.toInt| ≤ 2 ∧ |q.lr.toInt - p.lr.toInt| ≤ 5) ∧
    (∀ p q : FoodSafe, decodeFoodSafe c (encodeFoodSafe c p) = some q →
      decodeFoodSafe c (encodeFoodSafe c q) = some q)

/-- R126, R127: ADEC is ABSENT below 20 bytes, for another vendor and for another product; else the record, with the
default of each optional byte the buffer does not reach. A buffer longer than RX_MAX is dropped (R280): ABSENT (DEDUCED,
log 9). -/
def Obligations.AdecFiltersAndDefaults : Prop :=
  ∀ buf s, ConstInv s →
    ((∀ n, s.params.rxMax = some n → buf.length ≤ n) →
      (buf.length < 20 ∨ leNat (buf.take 2) ≠ s.params.vendorId.toNat ∨ byteAt buf 2 ≠ s.params.productProbe →
        ∃ t, exec (.adec buf) s = .next t ∧ OnlyAnswers .absent s t) ∧
      (20 ≤ buf.length → leNat (buf.take 2) = s.params.vendorId.toNat → byteAt buf 2 = s.params.productProbe →
        ∃ t a, exec (.adec buf) s = .next t ∧ OnlyAnswers (.ok (.advert a)) s t ∧
          a.product = s.params.productProbe ∧
          a.serial.toNat = (byteAt buf 3).toNat * 2 ^ 24 + (byteAt buf 4).toNat * 2 ^ 16 +
            (byteAt buf 5).toNat * 2 ^ 8 + (byteAt buf 6).toNat ∧
          decodeTemps (buf.drop 7) = some a.temps ∧
          (20 < buf.length → a.modeId = decodeModeIdentity s.params (byteAt buf 20)) ∧
          (buf.length ≤ 20 → a.modeId.id = 0#3 ∧ a.modeId.color = 0#3 ∧ a.modeId.mode = .normal) ∧
          (21 < buf.length → a.sensors = decodeSensors s.params (byteAt buf 21)) ∧
          (buf.length ≤ 21 → a.sensors.battery = false ∧ a.sensors.core = 0#3 ∧ a.sensors.surface = 0#2 ∧
            a.sensors.ambient = 0#2) ∧
          (22 < buf.length → a.hop = some (decodeHop s.params (byteAt buf 22))) ∧
          (buf.length ≤ 22 → a.hop = none))) ∧
    (∀ n, s.params.rxMax = some n → n < buf.length →
      ∃ t, exec (.adec buf) s = .next t ∧ OnlyAnswers .absent s t)

/-! ### FRAME -/

/-- R151: CRC16 answers the checksum and changes nothing else. For every parameter table the checksum is that of a register
that starts at CRC_INIT and takes in each byte, reflected if the input is, by an xor into its high byte and eight shifts
with CRC_POLY; at the end it is reflected if the output is, and xored with CRC_XOROUT. So the empty buffer gives the initial
value, reflected if the output is, xored; and the three check values of the rule. -/
def Obligations.Crc16AnswersChecksum : Prop :=
  (∀ buf s, ∃ t, exec (.crc16 buf) s = .next t ∧ OnlyAnswers (.ok (.crc (crc16 s.params buf))) s t) ∧
  (∀ p : Params, ∃ register : Buffer → U16, register [] = p.crcInit ∧
    (∀ buf b, register (buf ++ [b]) =
      Nat.repeat (fun c : U16 => if c.getLsbD 15 then (c <<< 1) ^^^ p.crcPoly else c <<< 1) 8
        (register buf ^^^ ((if p.crcRefIn then b.reverse else b).setWidth 16 <<< 8))) ∧
    ∀ buf, crc16 p buf = (if p.crcRefOut then (register buf).reverse else register buf) ^^^ p.crcXorOut) ∧
  (∀ p : Params, p.crcRefOut = false → crc16 p [] = p.crcInit ^^^ p.crcXorOut) ∧
  (∀ p : Params, p.crcRefOut = true → crc16 p [] = p.crcInit.reverse ^^^ p.crcXorOut) ∧
  (let digits : Buffer := [0x31, 0x32, 0x33, 0x34, 0x35, 0x36, 0x37, 0x38, 0x39]
   crc16 defaultParams digits = 0x29B1#16 ∧
   crc16 { defaultParams with crcInit := 0#16 } digits = 0x31C3#16 ∧
   crc16 { defaultParams with crcInit := 0#16, crcRefIn := true, crcRefOut := true } digits = 0x2189#16)

/-- R160 (b), from R151: when the generator polynomial has a non-zero constant term, changing one byte of a message of
unchanged length changes its CRC, for every setting of the other parameters. -/
def Obligations.CrcSeesOneChangedByte : Prop :=
  ∀ (p : Params) (before after : Buffer) (b c : Byte), p.crcPoly.getLsbD 0 = true → b ≠ c →
    crc16 p (before ++ b :: after) ≠ crc16 p (before ++ c :: after)

/-- R153, R152, R68: FBUILD of at most 255 bytes answers the request frame; a longer payload is answered ILLEGAL and
nothing changes (R283). -/
def Obligations.FbuildFramesPayload : Prop :=
  ∀ mtype payload s, ConstInv s →
    (payload.length ≤ 255 → ∃ t frame, exec (.fbuild mtype payload) s = .next t ∧
      OnlyAnswers (.ok (.bytes frame)) s t ∧ frame.length = 6 + payload.length ∧
      frame.take 2 = [0xCA#8, 0xFE#8] ∧
      leNat ((frame.drop 2).take 2) = (crc16 s.params (frame.drop 4)).toNat ∧
      frame.drop 4 = mtype :: BitVec.ofNat 8 payload.length :: payload) ∧
    (255 < payload.length → ∃ t, exec (.fbuild mtype payload) s = .next t ∧ OnlyAnswers .illegal s t)

/-- R156: FPARSE answers with the records and the cursor of `parseFrames`; every record took at least 7 bytes and the
cursor is inside the buffer, so at most a seventh of the buffer's length are returned; nothing else changes. A buffer
longer than RX_MAX is dropped (R280): no record and cursor 0 (DEDUCED, log 9). -/
def Obligations.FparseAnswersWithinBounds : Prop :=
  ∀ buf s, ConstInv s →
    ((∀ n, s.params.rxMax = some n → buf.length ≤ n) → ∃ t, exec (.fparse buf) s = .next t ∧
      OnlyAnswers (.ok (.parsed (parseFrames s.params buf).1 (parseFrames s.params buf).2)) s t ∧
      7 * (parseFrames s.params buf).1.length ≤ (parseFrames s.params buf).2 ∧
      (parseFrames s.params buf).2 ≤ buf.length) ∧
    (∀ n, s.params.rxMax = some n → n < buf.length →
      ∃ t, exec (.fparse buf) s = .next t ∧ OnlyAnswers (.ok (.parsed [] 0)) s t)

/-- R160 (a), R159, R158: any number of valid concatenated response frames, with a tail shorter than a header, parse to
exactly the records of those whose payload meets its minimum, in order, with the cursor at the start of the tail. The record
of a frame, by its type (R155, R157, R70): a log record and a session record hold the little-endian fields at the start of
the payload, and are absent below LOG_MIN_LEN and 6 bytes; the three acknowledgements hold nothing, whatever the payload; an
over-temperature record holds whether the first byte is non-zero, and is absent without one. Each carries its type and
whether the success byte is non-zero (R88). -/
def Obligations.FparseReadsConcatenatedFrames : Prop :=
  (∀ (p : Params) (fs : List ResponseParts) (tail : Buffer), p.consts = tableConsts →
    (∀ f ∈ fs, f.mtype ∈ p.messageTypes ∧ f.payload.length ≤ 255) → tail.length < 7 →
    parseFrames p (fs.flatMap (responseFrame p) ++ tail) =
      (fs.filterMap (frameRecord p), (fs.flatMap (responseFrame p)).length)) ∧
  (∀ (p : Params) (f : ResponseParts), p.consts = tableConsts → p.wf = true →
    let b := fun k => (byteAt f.payload k).toNat
    let success := decide (f.success ≠ 0#8)
    (f.mtype = p.mtLog →
      (f.payload.length < p.logMinLen → frameRecord p f = none) ∧
      (p.logMinLen ≤ f.payload.length → ∃ seq t, frameRecord p f = some ⟨p.mtLog, success, .log seq t⟩ ∧
        seq.toNat = b 0 + 2 ^ 8 * b 1 + 2 ^ 16 * b 2 + 2 ^ 24 * b 3 ∧ decodeTemps (f.payload.drop 4) = some t)) ∧
    (f.mtype = p.mtSession →
      (f.payload.length < 6 → frameRecord p f = none) ∧
      (6 ≤ f.payload.length → ∃ id period, frameRecord p f = some ⟨p.mtSession, success, .session id period⟩ ∧
        id.toNat = b 0 + 2 ^ 8 * b 1 + 2 ^ 16 * b 2 + 2 ^ 24 * b 3 ∧ period.toNat = b 4 + 2 ^ 8 * b 5)) ∧
    (f.mtype = p.mtSetId ∨ f.mtype = p.mtSetColor ∨ f.mtype = p.mtSetPred →
      frameRecord p f = some ⟨f.mtype, success, .ack⟩) ∧
    (f.mtype = p.mtOverTemp →
      (f.payload = [] → frameRecord p f = none) ∧
      (f.payload ≠ [] → frameRecord p f = some ⟨p.mtOverTemp, success, .overTemp (decide (b 0 ≠ 0))⟩)))

/-- R158, R156, R160 (b): after any number of valid frames, the first frame that is not one stops the parse: the records
before it are kept, the cursor is at its first byte, and everything from it on is discarded. Such a frame has one byte
changed, any byte but its length byte, when the generator polynomial has a non-zero constant term; or a type that is not
recognised, its CRC being good; or it is cut short at any byte by the end of the delivery. -/
def Obligations.FparseRejectsCorruptedFrame : Prop :=
  ∀ (p : Params) (fs : List ResponseParts) (f : ResponseParts) (bad rest : Buffer), p.consts = tableConsts →
    (∀ g ∈ fs, g.mtype ∈ p.messageTypes ∧ g.payload.length ≤ 255) → f.payload.length ≤ 255 →
    ((p.crcPoly.getLsbD 0 = true ∧ ∃ k b, k < (responseFrame p f).length ∧ k ≠ 6 ∧ b ≠ byteAt (responseFrame p f) k ∧
        bad = (responseFrame p f).set k b) ∨
      (f.mtype ∉ p.messageTypes ∧ bad = responseFrame p f) ∨
      (rest = [] ∧ ∃ k, k < (responseFrame p f).length ∧ bad = (responseFrame p f).take k)) →
    parseFrames p (fs.flatMap (responseFrame p) ++ (bad ++ rest)) =
      (fs.filterMap (frameRecord p), (fs.flatMap (responseFrame p)).length)

/-! ### LOG -/

/-- R181: LSESS stores the session; a first or a different session forgets the outstanding request; the logs, the flag
and every other register stay. -/
def Obligations.LsessSetsSession : Prop :=
  ∀ id periodMs s, ∃ t, exec (.lsess id periodMs) s = .next t ∧ Answers (.ok .empty) s t ∧
    t.sessValid = true ∧ t.sessId = id ∧ t.sessPeriodMs = periodMs ∧
    (s.sessValid = false ∨ s.sessId ≠ id → t.reqOut = false) ∧
    (s.sessValid = true → s.sessId = id → t.reqOut = s.reqOut) ∧
    t.logs = s.logs ∧ t.reqMin = s.reqMin ∧ t.reqMax = s.reqMax ∧ t.upToDate = s.upToDate ∧
    t.timeMs = s.timeMs ∧ KeepsArb s t ∧ KeepsSmooth s t ∧ EmitsNothing s t ∧ KeepsOutside s t

/-- R184, R182, R183, R189: LFRAME answers OK; with no session, and at either bound of capacity, the store is unchanged; a
stored point stays as it is, whatever the frame carries; with a session and room in the store (unbounded, or below each
bound that is set) a new point is stored with its masked temperatures; every other address of the store reads as before;
the request is retired exactly by the frame that carries `req_max`. -/
def Obligations.LframeRecordsAndRetires : Prop :=
  ∀ seq (r : RawTemps) s, ∃ t, exec (.lframe seq r) s = .next t ∧ Answers (.ok .empty) s t ∧
    (s.sessValid = false → t.logs = s.logs) ∧
    (∀ b, s.params.logDepth = some b → b ≤ (curLog s).length → t.logs = s.logs) ∧
    (∀ b, s.params.maxSessions = some b → s.logs.log s.sessId = none → b ≤ s.logs.length → t.logs = s.logs) ∧
    (∀ x, s.logs.read s.sessId seq = some x → t.logs.read s.sessId seq = some x) ∧
    (s.sessValid = true → HasRoom s → s.logs.read s.sessId seq = none →
      t.logs.read s.sessId seq = some (maskTemps r)) ∧
    (∀ id q, id ≠ s.sessId ∨ q ≠ seq → t.logs.read id q = s.logs.read id q) ∧
    (t.reqOut = true ↔ s.reqOut = true ∧ seq ≠ s.reqMax) ∧
    t.sessValid = s.sessValid ∧ t.sessId = s.sessId ∧ t.sessPeriodMs = s.sessPeriodMs ∧ t.reqMin = s.reqMin ∧
    t.reqMax = s.reqMax ∧ t.upToDate = s.upToDate ∧ t.timeMs = s.timeMs ∧ KeepsArb s t ∧ KeepsSmooth s t ∧
    EmitsNothing s t ∧ KeepsOutside s t

/-- R185: LMISS answers the lowest number of the range not stored; ABSENT for an empty range, for a covered range, and
under the edge rule, when `max` alone is missing and the last stored number is `max - 1`. Nothing else changes. -/
def Obligations.LmissFindsLeastMissing : Prop :=
  ∀ (min max : U32) s,
    (max.toNat < min.toNat ∨ (∀ n, min.toNat ≤ n → n ≤ max.toNat → Stored s n) →
      ∃ t, exec (.lmiss min max) s = .next t ∧ OnlyAnswers .absent s t) ∧
    (∀ m : U32, min.toNat ≤ m.toNat → m.toNat ≤ max.toNat → ¬ Stored s m.toNat →
      (∀ n, min.toNat ≤ n → n < m.toNat → Stored s n) →
      (m = max ∧ (∃ n, Stored s n ∧ n + 1 = max.toNat) ∧ (∀ n, Stored s n → n + 1 ≤ max.toNat) →
        ∃ t, exec (.lmiss min max) s = .next t ∧ OnlyAnswers .absent s t) ∧
      (¬ (m = max ∧ (∃ n, Stored s n ∧ n + 1 = max.toNat) ∧ (∀ n, Stored s n → n + 1 ≤ max.toNat)) →
        ∃ t, exec (.lmiss min max) s = .next t ∧ OnlyAnswers (.ok (.missing m)) s t))

/-- R186: the bound is `m + 499` when the span exceeds 500 records and `max` otherwise; the request stays inside
`[m, max]` and within 500 records. -/
def Obligations.CapRequestBoundsSpan : Prop :=
  ∀ (p : Params) (m max : U32), p.consts = tableConsts → m.toNat ≤ max.toNat →
    (max.toNat - m.toNat ≥ 500 → (capRequest p m max).toNat = m.toNat + 500 - 1) ∧
    (max.toNat - m.toNat < 500 → capRequest p m max = max) ∧
    m.toNat ≤ (capRequest p m max).toNat ∧ (capRequest p m max).toNat ≤ max.toNat ∧
    (capRequest p m max).toNat - m.toNat + 1 ≤ 500

/-- R187: LSTAT appends its point in mode NORMAL only, then evaluates: with no gap it is up to date and the request is
retired; with a gap and a request outstanding it emits nothing; with a gap and none outstanding it emits the capped
request and records it. The store changes at most at (session, `max`), where a new point is stored when there is a session
and room (R182, R183), and a stored one stays. -/
def Obligations.LstatEvaluatesGap : Prop :=
  ∀ (min max : U32) (r : RawTemps) (mode : OpMode) s,
    let s1 := if mode = .normal then appendPoint max (maskTemps r) s else s
    ∃ t, exec (.lstat min max r mode) s = .next t ∧
      (firstMissing (curLog s1) min max = none → t.upToDate = true ∧ t.reqOut = false ∧ t.reqMin = s.reqMin ∧
        t.reqMax = s.reqMax ∧ t.tx = s.tx ∧ Answers (.ok (.status true none)) s t) ∧
      (∀ m, firstMissing (curLog s1) min max = some m → s.reqOut = true → t.upToDate = false ∧ t.reqOut = true ∧
        t.reqMin = s.reqMin ∧ t.reqMax = s.reqMax ∧ t.tx = s.tx ∧ Answers (.ok (.status false none)) s t) ∧
      (∀ m, firstMissing (curLog s1) min max = some m → s.reqOut = false → t.upToDate = false ∧ t.reqOut = true ∧
        t.reqMin = m ∧ t.reqMax = capRequest s.params m max ∧
        t.tx = s.tx ++ [requestFrame s.params m (capRequest s.params m max)] ∧
        Answers (.ok (.status false (some (m, capRequest s.params m max)))) s t) ∧
      t.logs = s1.logs ∧ (mode ≠ .normal → t.logs = s.logs) ∧ (s.sessValid = false → t.logs = s.logs) ∧
      (mode = .normal → s.sessValid = true → HasRoom s → s.logs.read s.sessId max = none →
        t.logs.read s.sessId max = some (maskTemps r)) ∧
      (∀ id q, id ≠ s.sessId ∨ q ≠ max → t.logs.read id q = s.logs.read id q) ∧
      (∀ id q x, s.logs.read id q = some x → t.logs.read id q = some x) ∧
      t.sessValid = s.sessValid ∧ t.sessId = s.sessId ∧ t.sessPeriodMs = s.sessPeriodMs ∧ t.timeMs = s.timeMs ∧
      KeepsArb s t ∧ KeepsSmooth s t ∧ t.pub = s.pub ∧ KeepsOutside s t

/-- R188: the request on the wire is 14 bytes: sync, the CRC of the rest, the log message type, length 8, and the two
bounds little-endian. -/
def Obligations.BackfillRequestOnTheWire : Prop :=
  ∀ (p : Params) (lo hi : U32), p.consts = tableConsts →
    let frame := requestFrame p lo hi
    frame.length = 14 ∧ frame.take 2 = [0xCA#8, 0xFE#8] ∧
      leNat ((frame.drop 2).take 2) = (crc16 p (frame.drop 4)).toNat ∧
      (frame.drop 4).take 2 = [p.mtLog, 8#8] ∧
      leNat ((frame.drop 6).take 4) = lo.toNat ∧ leNat ((frame.drop 10).take 4) = hi.toNat

/-- R187 corner case: in mode NORMAL, with a session known and room in the store, `max` is never the number a request
starts at. -/
def Obligations.LstatNormalNeverMissesMax : Prop :=
  ∀ (min max m hi : U32) (r : RawTemps) s t up, s.sessValid = true → HasRoom s →
    exec (.lstat min max r .normal) s = .next t → Answers (.ok (.status up (some (m, hi)))) s t → m.toNat < max.toNat

/-- R192: LUTD answers the flag and changes nothing else. -/
def Obligations.LutdReportsFlag : Prop :=
  ∀ s, ∃ t, exec .lutd s = .next t ∧ OnlyAnswers (.ok (.upToDate s.upToDate)) s t

/-! ### ARB -/

/-- R211, R212: with time not running backwards IRQRY answers 1 exactly for a direct candidate, outside the half-open
lockout window, or for a relayed holder whose hop count is not smaller than the candidate's; it writes the time only. -/
def Obligations.IrqryVerdict : Prop :=
  ∀ hopPresent (hop : Byte) (now : U64) s, ConstInv s → s.timeMs ≤ now.toNat →
    ∃ t v, exec (.irqry hopPresent hop now) s = .next t ∧ Answers (.ok (.accept v)) s t ∧
      (v = true ↔ hopPresent = false ∨ ¬ (s.irValid = true ∧ now.toNat < s.irTs + 1000) ∨
        (s.irHopPresent = true ∧ hop.toNat ≤ s.irHop.toNat)) ∧
      t.timeMs = now.toNat ∧ KeepsAllButTime s t

/-- R213: IRACC of a candidate IRQRY would accept stores it with its time and answers 1; the hop count of a relayed one is
stored. -/
def Obligations.IraccStoresAccepted : Prop :=
  ∀ value hopPresent (hop : Byte) (now : U64) s, ConstInv s → s.timeMs ≤ now.toNat →
    (hopPresent = false ∨ ¬ (s.irValid = true ∧ now.toNat < s.irTs + 1000) ∨
      (s.irHopPresent = true ∧ hop.toNat ≤ s.irHop.toNat)) →
    ∃ t, exec (.iracc value hopPresent hop now) s = .next t ∧ Answers (.ok (.accepted true)) s t ∧
      t.irValid = true ∧ t.irValue = value ∧ t.irTs = now.toNat ∧ t.irHopPresent = hopPresent ∧
      (hopPresent = true → t.irHop = hop) ∧
      t.timeMs = now.toNat ∧ KeepsLog s t ∧ KeepsSmooth s t ∧ EmitsNothing s t ∧ KeepsOutside s t

/-- R213: IRACC of a relayed candidate inside the window, against a direct holder or a smaller hop count, is discarded:
it answers 0 and writes the time only. -/
def Obligations.IraccDiscardsRejected : Prop :=
  ∀ value (hop : Byte) (now : U64) s, ConstInv s → s.timeMs ≤ now.toNat → s.irValid = true → now.toNat < s.irTs + 1000 →
    (s.irHopPresent = false ∨ s.irHop.toNat < hop.toNat) →
    ∃ t, exec (.iracc value true hop now) s = .next t ∧ Answers (.ok (.accepted false)) s t ∧
      t.timeMs = now.toNat ∧ KeepsAllButTime s t

/-- R214: IRRD answers the stored value while it is less than 5000 ms old and ABSENT otherwise; it writes the time
only. -/
def Obligations.IrrdShowsFreshValue : Prop :=
  ∀ (now : U64) s, ConstInv s → s.timeMs ≤ now.toNat →
    (s.irValid = true → now.toNat < s.irTs + 5000 →
      ∃ t, exec (.irrd now) s = .next t ∧ Answers (.ok (.value s.irValue)) s t ∧ t.timeMs = now.toNat ∧
        KeepsAllButTime s t) ∧
    (s.irValid = false ∨ s.irTs + 5000 ≤ now.toNat →
      ∃ t, exec (.irrd now) s = .next t ∧ Answers .absent s t ∧ t.timeMs = now.toNat ∧ KeepsAllButTime s t)

/-- R287 (a), R283: a command whose `now` lies before `S.time_ms` is answered ILLEGAL and changes nothing. -/
def Obligations.BackwardTimeIsIllegal : Prop :=
  ∀ (i : Instr) (now : Nat) s, operandNow s.params i = some now → now < s.timeMs →
    ∃ t, exec i s = .next t ∧ OnlyAnswers .illegal s t

/-- R215: after an accepted relayed candidate, a worse hop count is rejected before 1000 ms have passed and accepted at
or after that, and a direct candidate is always accepted; after an accepted direct one, every relayed candidate is
rejected before 1000 ms have passed. -/
def Obligations.ArbitrationByHopAndWindow : Prop :=
  ∀ v w (h1 h2 : Byte) p1 (n1 n2 : U64) s t, ConstInv s → exec (.iracc v p1 h1 n1) s = .next t →
    Answers (.ok (.accepted true)) s t → n1.toNat ≤ n2.toNat →
    (∃ u, exec (.iracc w false h2 n2) t = .next u ∧ Answers (.ok (.accepted true)) t u) ∧
    (n2.toNat < n1.toNat + 1000 → (p1 = false ∨ h1.toNat < h2.toNat) →
      ∃ u, exec (.iracc w true h2 n2) t = .next u ∧ Answers (.ok (.accepted false)) t u ∧ KeepsArb t u) ∧
    (n1.toNat + 1000 ≤ n2.toNat →
      ∃ u, exec (.iracc w true h2 n2) t = .next u ∧ Answers (.ok (.accepted true)) t u ∧ u.irHop = h2)

/-! ### SMOOTH -/

/-- R231: a duplicate PUPD writes no SMOOTH register, touches no timer and publishes nothing; only the time moves. -/
def Obligations.PupdDuplicateIsNoOp : Prop :=
  ∀ present st (seq : U32) (now : U64) s, ConstInv s → s.timeMs ≤ now.toNat → s.prevSeqValid = true → s.prevSeq = seq →
    ∃ t, exec (.pupd present st seq now) s = .next t ∧ Answers (.ok (.published false)) s t ∧ t.timeMs = now.toNat ∧
      KeepsAllButTime s t

/-- R234: a non-duplicate PUPD with an absent status publishes absent, records the sequence number, restarts the
watchdog, stops the ticker and leaves the linearization registers. -/
def Obligations.PupdAbsentStatus : Prop :=
  ∀ st (seq : U32) (now : U64) s, ConstInv s → s.timeMs ≤ now.toNat → ¬ (s.prevSeqValid = true ∧ s.prevSeq = seq) →
    ∃ t, exec (.pupd false st seq now) s = .next t ∧ Answers (.ok (.published true)) s t ∧
      t.prevInfoValid = false ∧ t.pub = s.pub ++ [none] ∧ t.prevSeqValid = true ∧ t.prevSeq = seq ∧
      t.predStale = false ∧ t.wdogArmed = true ∧ t.wdogDeadline = now.toNat + 15000 ∧ t.tickerArmed = false ∧
      KeepsCountdown s t ∧ t.timeMs = now.toNat ∧ KeepsLog s t ∧ KeepsArb s t ∧ t.tx = s.tx ∧ KeepsOutside s t

/-- R232, R235, R240, R242: a non-duplicate PUPD with a status publishes once the information it stores: the status's
fields with code 3 as IDLE, the percent, a countdown exactly for PREDICTING at or below 14400 s; the ticker runs exactly
for PREDICTING at or below 300 s; without a countdown no linearization register is written. -/
def Obligations.PupdPublishesInformation : Prop :=
  ∀ (st : PredictionStatus) (seq : U32) (now : U64) s, ConstInv s → s.timeMs ≤ now.toNat →
    ¬ (s.prevSeqValid = true ∧ s.prevSeq = seq) →
    ∃ t, exec (.pupd true st seq now) s = .next t ∧ Answers (.ok (.published true)) s t ∧
      t.prevInfoValid = true ∧ t.pub = s.pub ++ [some t.prevInfo] ∧
      t.prevInfo.state = (if st.state = 1#2 then .predicting else if st.state = 2#2 then .done else .idle) ∧
      t.prevInfo.mode = st.mode ∧ t.prevInfo.ptype = st.ptype ∧ t.prevInfo.setPoint = st.setPoint ∧
      t.prevInfo.heatStart = st.heatStart ∧ t.prevInfo.estCore = st.estCore ∧
      t.prevInfo.percent = pct st.estCore.toInt st.heatStart.toInt st.setPoint.toInt ∧
      (t.prevInfo.secsValid = true ↔ st.state = 1#2 ∧ st.predSecs.toNat ≤ 14400) ∧
      (t.tickerArmed = true ↔ st.state = 1#2 ∧ st.predSecs.toNat ≤ 300) ∧
      (t.tickerArmed = true → t.tickerDeadline = now.toNat + 200) ∧
      (¬ (st.state = 1#2 ∧ st.predSecs.toNat ≤ 14400) → KeepsCountdown s t) ∧
      t.prevSeqValid = true ∧ t.prevSeq = seq ∧ t.predStale = false ∧ t.wdogArmed = true ∧
      t.wdogDeadline = now.toNat + 15000 ∧ t.timeMs = now.toNat ∧
      KeepsLog s t ∧ KeepsArb s t ∧ t.tx = s.tx ∧ KeepsOutside s t

/-- R238, R237: above 300 s and up to the cap, a new display is the prediction rounded to 15 s on every third sequence
number or when nothing is displayed, and `current_ms` follows it; otherwise display and `current_ms` are kept. -/
def Obligations.PupdLowResolution : Prop :=
  ∀ (st : PredictionStatus) (seq : U32) (now : U64) s, ConstInv s → s.timeMs ≤ now.toNat →
    ¬ (s.prevSeqValid = true ∧ s.prevSeq = seq) → st.state = 1#2 → 300 < st.predSecs.toNat →
    st.predSecs.toNat ≤ 14400 →
    ∃ t, exec (.pupd true st seq now) s = .next t ∧ t.tickerArmed = false ∧
      t.targetSeconds = s.targetSeconds ∧ t.stepPerTick = s.stepPerTick ∧
      (¬ (s.prevInfoValid = true ∧ s.prevInfo.secsValid = true) ∨ seq.toNat % 3 = 0 →
        t.prevInfo.secs.toNat % 15 = 0 ∧ t.prevInfo.secs.toNat ≤ st.predSecs.toNat + 7 ∧
        st.predSecs.toNat ≤ t.prevInfo.secs.toNat + 7 ∧ t.currentMs = 1000 * (t.prevInfo.secs.toNat : Int)) ∧
      (s.prevInfoValid = true → s.prevInfo.secsValid = true → seq.toNat % 3 ≠ 0 →
        t.prevInfo.secs = s.prevInfo.secs ∧ t.currentMs = s.currentMs)

/-- R239, R236: at or below 300 s the target is the prediction less 5 s, floored at 0; with a displayed countdown the step
is a 25th of the distance from the current value, truncated toward zero, and the current value stays; otherwise the
countdown restarts at the prediction with 200 ms per tick. What is displayed is the current value in whole seconds: 0 at or
below 0, else cut, and saturated at 2^32 - 1. -/
def Obligations.PupdHighResolution : Prop :=
  ∀ (st : PredictionStatus) (seq : U32) (now : U64) s, ConstInv s → s.timeMs ≤ now.toNat →
    ¬ (s.prevSeqValid = true ∧ s.prevSeq = seq) → st.state = 1#2 → st.predSecs.toNat ≤ 300 →
    ∃ t, exec (.pupd true st seq now) s = .next t ∧
      (t.targetSeconds.toNat : Int) = max ((st.predSecs.toNat : Int) - 5) 0 ∧
      (t.currentMs ≤ 0 → t.prevInfo.secs = 0#32) ∧
      (0 < t.currentMs → (t.prevInfo.secs.toNat : Int) = min (t.currentMs / 1000) (2 ^ 32 - 1)) ∧
      (s.prevInfoValid = true ∧ s.prevInfo.state = .predicting ∧ s.prevInfo.secsValid = true →
        t.currentMs = s.currentMs ∧
          (WidthInv s → t.stepPerTick = Int.tdiv (s.currentMs - 1000 * (t.targetSeconds.toNat : Int)) 25)) ∧
      (¬ (s.prevInfoValid = true ∧ s.prevInfo.state = .predicting ∧ s.prevInfo.secsValid = true) →
        t.currentMs = 1000 * (st.predSecs.toNat : Int) ∧ t.stepPerTick = 200)

/-- R246: PRD answers the stored information when there is one and it is not stale, else ABSENT; nothing else changes. -/
def Obligations.PrdShowsUnlessStale : Prop :=
  ∀ s, (s.prevInfoValid = true → s.predStale = false →
      ∃ t, exec .prd s = .next t ∧ OnlyAnswers (.ok (.info s.prevInfo)) s t) ∧
    (s.prevInfoValid = false ∨ s.predStale = true → ∃ t, exec .prd s = .next t ∧ OnlyAnswers .absent s t)

/-- R241: PPCT answers 0 at or below the start, 100 at or above the set point (the first floor wins), and between them
the percentage rounded to the nearest integer, ties upward. -/
def Obligations.PpctRoundsPercent : Prop :=
  ∀ (core start sp : S32) s, ∃ t p, exec (.ppct core start sp) s = .next t ∧ OnlyAnswers (.ok (.percent p)) s t ∧
    p.toNat ≤ 100 ∧
    (core.toInt ≤ start.toInt → p.toNat = 0) ∧
    (start.toInt < core.toInt → sp.toInt ≤ core.toInt → p.toNat = 100) ∧
    (start.toInt < core.toInt → core.toInt < sp.toInt →
      (2 * (p.toNat : Int) - 1) * (sp.toInt - start.toInt) ≤ 200 * (core.toInt - start.toInt) ∧
      200 * (core.toInt - start.toInt) < (2 * (p.toNat : Int) + 1) * (sp.toInt - start.toInt))

/-- R244, R236: an enabled PTICK moves the time to its deadline, walks `current_ms` by the step (wrapped to 64 bits),
republishes the information with the reduced countdown (the whole seconds of `current_ms`: 0 at or below 0, else cut, and
saturated at 2^32 - 1), and sets the next deadline 200 ms on; nothing else is written and no response is given. -/
def Obligations.PtickWalksCountdown : Prop :=
  ∀ s, ConstInv s → s.tickerArmed = true → s.tickerDeadline ≤ s.wdogDeadline →
    ∃ t, exec .ptick s = .next t ∧ t.timeMs = max s.timeMs s.tickerDeadline ∧
      t.currentMs = Int.bmod (s.currentMs - s.stepPerTick) (2 ^ 64) ∧
      t.prevInfo = { s.prevInfo with secs := t.prevInfo.secs } ∧
      (t.currentMs ≤ 0 → t.prevInfo.secs = 0#32) ∧
      (0 < t.currentMs → (t.prevInfo.secs.toNat : Int) = min (t.currentMs / 1000) (2 ^ 32 - 1)) ∧
      t.pub = s.pub ++ [some t.prevInfo] ∧ t.tickerDeadline = s.tickerDeadline + 200 ∧
      t.prevInfoValid = s.prevInfoValid ∧ t.prevSeqValid = s.prevSeqValid ∧ t.prevSeq = s.prevSeq ∧
      t.targetSeconds = s.targetSeconds ∧ t.stepPerTick = s.stepPerTick ∧ t.tickerArmed = s.tickerArmed ∧
      t.wdogArmed = s.wdogArmed ∧ t.wdogDeadline = s.wdogDeadline ∧ t.predStale = s.predStale ∧
      KeepsLog s t ∧ KeepsArb s t ∧ t.tx = s.tx ∧ t.rsp = s.rsp ∧ KeepsOutside s t

/-- R245: an enabled PWDOG moves the time to its deadline, cancels the ticker, disarms itself and marks the prediction
stale; it publishes nothing and keeps every other register. -/
def Obligations.PwdogMarksStale : Prop :=
  ∀ s, s.wdogArmed = true → (s.tickerArmed = false ∨ s.wdogDeadline ≤ s.tickerDeadline) →
    ∃ t, exec .pwdog s = .next t ∧ t.timeMs = max s.timeMs s.wdogDeadline ∧ t.tickerArmed = false ∧
      t.wdogArmed = false ∧ t.predStale = true ∧ t.tickerDeadline = s.tickerDeadline ∧
      t.wdogDeadline = s.wdogDeadline ∧ KeepsPrev s t ∧ KeepsCountdown s t ∧ KeepsLog s t ∧ KeepsArb s t ∧
      EmitsNothing s t ∧ t.rsp = s.rsp ∧ KeepsOutside s t

/-- The model's choice, log 14: a timer's turn taken while R243 does not enable its event leaves the state as it is. -/
def Obligations.DisabledTimersDoNothing : Prop :=
  ∀ s, (¬ (s.tickerArmed = true ∧ s.tickerDeadline ≤ s.wdogDeadline) → exec .ptick s = .next s) ∧
    (¬ (s.wdogArmed = true ∧ (s.tickerArmed = false ∨ s.wdogDeadline ≤ s.tickerDeadline)) → exec .pwdog s = .next s)

/-- R248 (e): at a tick that does not wrap, the published seconds do not rise when the step is zero or positive and do
not fall when it is negative, against the seconds of the countdown the tick started from. -/
def Obligations.TicksFollowTheSignOfTheStep : Prop :=
  ∀ s t, exec .ptick s = .next t → s.tickerArmed = true → s.tickerDeadline ≤ s.wdogDeadline →
    s.prevInfo.secs = disp s.currentMs → t.currentMs = s.currentMs - s.stepPerTick →
    (0 ≤ s.stepPerTick → t.prevInfo.secs.toNat ≤ s.prevInfo.secs.toNat) ∧
    (s.stepPerTick < 0 → s.prevInfo.secs.toNat ≤ t.prevInfo.secs.toNat)

/-- R243, last sentence: one arming of the ticker, 200 ms after `now` against a watchdog 15000 ms after `now`, yields at
most 75 ticks, whatever other operations run between them (R287 (d)). An arming lasts until a PUPD that is neither a
duplicate nor answered ILLEGAL; DISC, RST and the watchdog may end it sooner. -/
def Obligations.AtMostSeventyFiveTicks : Prop :=
  ∀ (now n : Nat) (run : Nat → State) (op : Nat → Instr), ConstInv (run 0) →
    (run 0).tickerDeadline = now + 200 → (run 0).wdogDeadline = now + 15000 →
    (∀ k, k < n → exec (op k) (run k) = .next (run (k + 1))) →
    (∀ k, k < n → ∀ present st seq time, op k = .pupd present st seq time →
      time.toNat < (run k).timeMs ∨ ((run k).prevSeqValid = true ∧ (run k).prevSeq = seq)) →
    ((List.range n).filter fun k => decide (op k = .ptick) && tickEnabled (run k)).length ≤ 75

/-! ### Steps -/

/-- A step runs the decoded command: when the bytes first on the agenda decode to an operation a host may issue, with
nothing left over, and no timer is due strictly before its `now`, the step is `exec` of that operation on the state with
the entry taken off the agenda. -/
def Obligations.StepRunsPresentedCommand : Prop :=
  ∀ s bytes rest i, s.agenda = .command bytes :: rest → decode bytes = .ok (i, []) → i ≠ .ptick → i ≠ .pwdog →
    (∀ now, operandNow s.params i = some now →
      (s.tickerArmed = true → now ≤ s.tickerDeadline) ∧ (s.wdogArmed = true → now ≤ s.wdogDeadline)) →
    step s = exec i { s with agenda := rest }

/-- R287 (b), (c): while an armed timer's deadline lies strictly below the `now` of the command first on the agenda, the
step is a timer event, the earlier deadline's, either one at equal deadlines (log 13), and the command keeps its place. That
this holds for a `now` before `S.time_ms` too is the model's inference (DEDUCED, log 7), and that the step counts one draw
of the free choice is the model's form (log 5). -/
def Obligations.StepFiresDueTimerFirst : Prop :=
  ∀ s bytes rest i now, s.agenda = .command bytes :: rest → decode bytes = .ok (i, []) →
    operandNow s.params i = some now → s.wdogArmed = true →
    (s.tickerArmed = true → s.tickerDeadline < now → s.tickerDeadline < s.wdogDeadline →
      ∃ t, step s = .next t ∧ t.agenda = s.agenda ∧ exec .ptick { s with freeCount := s.freeCount + 1 } = .next t) ∧
    (s.wdogDeadline < now → (s.tickerArmed = false ∨ s.wdogDeadline < s.tickerDeadline) →
      ∃ t, step s = .next t ∧ t.agenda = s.agenda ∧ exec .pwdog { s with freeCount := s.freeCount + 1 } = .next t) ∧
    (s.tickerArmed = true → s.tickerDeadline = s.wdogDeadline → s.wdogDeadline < now →
      step s = exec .ptick { s with freeCount := s.freeCount + 1 } ∨
      step s = exec .pwdog { s with freeCount := s.freeCount + 1 })

/-- The turns of the two timers, and the empty agenda (the model's form of the order of agents, log 12): a timer's turn is
its event; with nothing on the agenda the state is held (R292 (c)). -/
def Obligations.StepTakesTimerTurn : Prop :=
  ∀ s, (∀ rest, s.agenda = .ticker :: rest → step s = exec .ptick { s with agenda := rest }) ∧
    (∀ rest, s.agenda = .watchdog :: rest → step s = exec .pwdog { s with agenda := rest }) ∧
    (s.agenda = [] → step s = .next s)

/-- R92: a command whose opcode is none of R80, or an internal one, is answered ILLEGAL whatever bytes follow, changes no
register, and the next entry of the agenda comes up. -/
def Obligations.UnissuableOpcodesAreIllegal : Prop :=
  ∀ s (op : Byte) operands rest, s.agenda = .command (op :: operands) :: rest →
    (op.toNat ∉ [0x00, 0x01, 0x02, 0x10, 0x11, 0x12, 0x13, 0x14, 0x15, 0x16, 0x17, 0x20, 0x21, 0x22, 0x30, 0x31, 0x32,
      0x33, 0x34, 0x40, 0x41, 0x42, 0x50, 0x51, 0x52]) →
    ∃ t, step s = .next t ∧ t.agenda = rest ∧ OnlyAnswers .illegal { s with agenda := rest } t

/-! ### Encoding -/

/-- R81, R82: decoding the command of any well-formed operation, whatever bytes follow it, gives the operation back with
every operand, and those bytes. -/
def Obligations.DecodeReadsWhatEncodeWrites : Prop :=
  ∀ (i : Instr) (rest : Buffer), i.wf = true → decode (encode i ++ rest) = .ok (i, rest)

/-- Command bytes of spec/95_test_vectors.md (program P1 step 3, program P2 steps 2 and 12, program P3 step 1) decode to the
operations they stand for. -/
def Obligations.SampleCommandsDecode : Prop :=
  decode [0x30#8, 0x78#8, 0x56#8, 0x34#8, 0x12#8, 0xe8#8, 0x03#8] = .ok (.lsess 0x12345678#32 1000#16, []) ∧
  decode [0x41#8, 0x28#8, 0x0a#8, 0#8, 0#8, 1#8, 3#8, 0x64#8, 0#8, 0#8, 0#8, 0#8, 0#8, 0#8, 0#8] =
    .ok (.iracc 2600#32 true 3#8 100#64, []) ∧
  decode [0x42#8, 0xff#8, 0x18#8, 0#8, 0#8, 0#8, 0#8, 0#8, 0#8] = .ok (.irrd 6399#64, []) ∧
  decode [0x50#8, 1#8, 1#8, 1#8, 0#8, 0xbc#8, 0x1b#8, 0#8, 0#8, 0xf4#8, 1#8, 0#8, 0#8, 0x31#8, 1#8, 0#8, 0#8, 0x64#8,
    0x19#8, 0#8, 0#8, 4#8, 0#8, 0#8, 0#8, 0xe8#8, 3#8, 0#8, 0#8, 0#8, 0#8, 0#8, 0#8] =
    .ok (.pupd true ⟨1#2, .timeToRemoval, 0#8, 7100#32, 500#32, 305#32, 6500#32⟩ 4#32 1000#64, [])

/-! ### The whole machine -/

/-- R280, R83, R82, R283: every operation and event runs to its end; a host operation gives exactly one response, an internal
event none. The response is ILLEGAL exactly for an FBUILD payload above 255 bytes and for a `now` before `S.time_ms`; the
third condition of R283, an opcode no host may issue, concerns the command (`UnissuableOpcodesAreIllegal`). -/
def Obligations.EveryOperationCompletes : Prop :=
  ∀ (i : Instr) s, ∃ t, exec i s = .next t ∧
    ((i = .ptick ∨ i = .pwdog) → t.rsp = s.rsp) ∧ (i ≠ .ptick → i ≠ .pwdog → ∃ r, t.rsp = s.rsp ++ [r] ∧
      (r = .illegal ↔ (∃ mtype payload, i = .fbuild mtype payload ∧ 255 < payload.length) ∨
        ∃ now, operandNow s.params i = some now ∧ now < s.timeMs))

/-- R280, U12: a step never faults; the model refuses only a byte string that is no command of R81 (log 16), and the
command of a well-formed operation is always one. -/
def Obligations.StepNeverStopsOnACommand : Prop :=
  (∀ s f, step s ≠ .fault f) ∧
  (∀ s r, step s = .refused r →
    ∃ bytes rest e, s.agenda = .command bytes :: rest ∧ fetchCommand bytes = .malformed e ∧ r = .malformedCommand e) ∧
  (∀ s (i : Instr) rest, i.wf = true → s.agenda = .command (encode i) :: rest → ∃ t, step s = .next t)

/-- R43, R45, R31, R27: which operations write TX, PUB, the up-to-date flag and the log store; RST apart, which resets
them. No operation and no step writes the parameters (R25). -/
def Obligations.WhoWritesWhat : Prop :=
  (∀ (i : Instr) s t, exec i s = .next t → t.params = s.params ∧ t.agenda = s.agenda) ∧
  (∀ s t, step s = .next t → t.params = s.params) ∧
  (∀ (i : Instr) s t, exec i s = .next t → i ≠ .rst →
    (t.tx ≠ s.tx → ∃ min max r mode, i = .lstat min max r mode) ∧
    (t.upToDate ≠ s.upToDate → ∃ min max r mode, i = .lstat min max r mode) ∧
    (t.logs ≠ s.logs → (∃ min max r mode, i = .lstat min max r mode) ∨ ∃ seq r, i = .lframe seq r) ∧
    (t.pub ≠ s.pub → i = .ptick ∨ ∃ present st seq now, i = .pupd present st seq now))

/-- R28 (c), R27: an entry of the log store, once there, reads the same after every step that does not run RST. -/
def Obligations.LogEntriesArePermanent : Prop :=
  ∀ s t id seq x, step s = .next t →
    (∀ bytes rest, s.agenda = .command bytes :: rest → fetchCommand bytes ≠ .run .rst) →
    s.logs.read id seq = some x → t.logs.read id seq = some x

/-- R28 (a), (b), (d), R186: every step keeps the form of the log store (ascending, no sequence number twice) and the
bound on the outstanding request. -/
def Obligations.StepKeepsLogInvariants : Prop :=
  ∀ s t, ConstInv s → LogStoreInv s → RequestInv s → step s = .next t → LogStoreInv t ∧ RequestInv t

/-- R41: the four invariants of the SMOOTH state are kept by every step. -/
def Obligations.StepKeepsSmoothInvariants : Prop :=
  ∀ s t, ConstInv s → SmoothInv s → step s = .next t → SmoothInv t

/-- R33, kept by every step; so is the width of the linearization registers (R37, LIN_W bits); and what the model infers
from R287 (b) and R245 (DEDUCED, log 22): no armed deadline lies before the time, and a stale prediction has no armed
timer. -/
def Obligations.StepKeepsTimeInvariants : Prop :=
  ∀ s t, ArbInv s → WidthInv s → TimeInv s → step s = .next t → ArbInv t ∧ WidthInv t ∧ TimeInv t

/-- R45: every step keeps the last event on PUB equal to the previous information, given R41 (a), which it keeps too. -/
def Obligations.StepKeepsPublication : Prop :=
  ∀ s t, TickerInv s → PubInv s → step s = .next t → TickerInv t ∧ PubInv t

/-- Every invariant holds after reset, and the parameters are the table of R5 as it prints them: the values of the source
and of the spec, and the defaults of the OPEN parameters and layouts (log 6). -/
def Obligations.ResetMeetsInvariants : Prop :=
  AllInv State.reset ∧
  State.reset.params.consts =
    { sync0 := 0xCA#8, sync1 := 0xFE#8, reqHdrLen := 6, rspHdrLen := 7, sessionMinLen := 6, overTempMinLen := 1
      advMinLen := 20, tempLsbCenti := 5, lrLsbCenti := 10, maxLogRequest := 500, irLockoutMs := 1000, irStaleMs := 5000
      predStaleMs := 15000, tickMs := 200, reportMs := 5000, maxPredS := 14400, lowresCutoffS := 300, lowresStepS := 15
      lowresEvery := 3, timeW := 64, linW := 64 } ∧
  State.reset.params.layouts =
    { modeByte := { mode := ⟨0, 2⟩, color := ⟨2, 3⟩, id := ⟨5, 3⟩ }
      batteryByte := { battery := ⟨0, 1⟩, core := ⟨1, 3⟩, surface := ⟨4, 2⟩, ambient := ⟨6, 2⟩ }
      hopByte := ⟨0, 2⟩
      foodSafe :=
        { sel := ⟨0, 16⟩, thr := ⟨16, 13⟩, z := ⟨29, 13⟩, ref := ⟨42, 13⟩, d := ⟨55, 13⟩, lr := ⟨68, 8⟩ } } ∧
  State.reset.params =
    { crcPoly := 0x1021#16, crcInit := 0xFFFF#16, crcRefIn := false, crcRefOut := false, crcXorOut := 0#16
      mtSetId := 1#8, mtSetColor := 2#8, mtSession := 3#8, mtLog := 4#8, mtSetPred := 5#8, mtOverTemp := 6#8
      logMinLen := 17, vendorId := 0x09C7#16, productProbe := 1#8, tempOffsetCenti := -2000, logDepth := none
      maxSessions := none, rxMax := none, layouts := State.reset.params.layouts, consts := State.reset.params.consts } ∧
  State.reset.params.wf = true
end

