-- ==== Sys2Proof/Laws/Bytes.lean ====
section
/-! SUPPORT. Laws of byte strings and bit fields: little-endian strings, the readers against the writers, and a field read
after fields were inserted. -/

namespace Sys2Proof

/-! ### Little-endian strings -/

@[simp] theorem leBytes_length (n v : Nat) : (leBytes n v).length = n := by
  induction n generalizing v with
  | zero => rfl
  | succ n ih => simp [leBytes, ih]

theorem leNat_leBytes (n v : Nat) : leNat (leBytes n v) = v % 256 ^ n := by
  induction n generalizing v with
  | zero => simp [leBytes, leNat, Nat.mod_one]
  | succ n ih =>
    rw [leBytes, leNat, ih, pow_succ', Nat.mod_mul]
    simp

theorem leNat_lt (bs : Buffer) : leNat bs < 256 ^ bs.length := by
  induction bs with
  | nil => simp [leNat]
  | cons b bs ih =>
    have hb := b.isLt
    simp only [leNat, List.length_cons, pow_succ']
    omega

theorem leBytes_leNat (bs : Buffer) : leBytes bs.length (leNat bs) = bs := by
  induction bs with
  | nil => rfl
  | cons b bs ih =>
    have hb := b.isLt
    have hdiv : (b.toNat + 256 * leNat bs) / 256 = leNat bs := by omega
    have hhead : BitVec.ofNat 8 (b.toNat + 256 * leNat bs) = b := by
      apply BitVec.eq_of_toNat_eq
      simp only [BitVec.toNat_ofNat]
      omega
    simp only [List.length_cons, leBytes, leNat, hdiv, hhead, ih]

theorem leNat_append (xs ys : Buffer) : leNat (xs ++ ys) = leNat xs + 256 ^ xs.length * leNat ys := by
  induction xs with
  | nil => simp [leNat]
  | cons x xs ih =>
    simp only [List.cons_append, leNat, ih, List.length_cons, pow_succ']
    ring

/-! ### Readers against writers (R81) -/

@[simp] theorem andThen_ok {α β : Type} (a : α) (rest : Buffer) (f : α → Buffer → Decoded β) :
    Decoded.andThen (.ok (a, rest)) f = f a rest := rfl

@[simp] theorem andThen_error {α β : Type} (e : DecodeError) (f : α → Buffer → Decoded β) :
    Decoded.andThen (.error e) f = .error e := rfl

theorem takeBytes_append (xs rest : Buffer) : takeBytes xs.length (xs ++ rest) = .ok (xs, rest) := by
  induction xs with
  | nil => rfl
  | cons x xs ih => simp [takeBytes, ih]

/-- What taking bytes can do: too few are an error, else the string splits at `n`. -/
theorem takeBytes_cases (n : Nat) (bs : Buffer) :
    (bs.length < n ∧ takeBytes n bs = .error .truncated) ∨
      (n ≤ bs.length ∧ takeBytes n bs = .ok (bs.take n, bs.drop n)) := by
  induction n generalizing bs with
  | zero => exact .inr ⟨Nat.zero_le _, rfl⟩
  | succ n ih =>
    cases bs with
    | nil => exact .inl ⟨by simp, rfl⟩
    | cons b bs =>
      rcases ih bs with ⟨h, e⟩ | ⟨h, e⟩
      · exact .inl ⟨by simpa using h, by simp [takeBytes, e]⟩
      · exact .inr ⟨by simpa using h, by simp [takeBytes, e]⟩

theorem readScalar_writeScalar {n w : Nat} (v : BitVec w) (rest : Buffer) (h : w ≤ 8 * n) :
    readScalar n w (writeScalar n v ++ rest) = .ok (v, rest) := by
  have key := takeBytes_append (leBytes n v.toNat) rest
  rw [leBytes_length] at key
  have hv : v.toNat < 256 ^ n := by
    calc v.toNat < 2 ^ w := v.isLt
      _ ≤ 2 ^ (8 * n) := Nat.pow_le_pow_right (by decide) h
      _ = 256 ^ n := by rw [pow_mul]; norm_num
  simp [readScalar, writeScalar, key, leNat_leBytes, Nat.mod_eq_of_lt hv]

theorem readFlag_writeFlag (b : Bool) (rest : Buffer) : readFlag (writeFlag b ++ rest) = .ok (b, rest) := by
  cases b <;> rfl

theorem readBuffer_writeBuffer (buf rest : Buffer) (h : buf.fits = true) :
    readBuffer (writeBuffer buf ++ rest) = .ok (buf, rest) := by
  have hlen : buf.length < 65536 := by simpa [Buffer.fits] using h
  have hn : (BitVec.ofNat 16 buf.length).toNat = buf.length := by
    simp only [BitVec.toNat_ofNat]; exact Nat.mod_eq_of_lt hlen
  have key := readScalar_writeScalar (n := 2) (BitVec.ofNat 16 buf.length) (buf ++ rest) (by decide)
  rw [writeScalar, hn] at key
  simp [readBuffer, writeBuffer, key, hn, takeBytes_append]

theorem readTemps_writeTemps (t : RawTemps) (rest : Buffer) : readTemps (writeTemps t ++ rest) = .ok (t, rest) := by
  simp [readTemps, writeTemps, List.append_assoc, readScalar_writeScalar]

theorem predModeOfCode_code (m : PredMode) : predModeOfCode (predModeCode m) = m := by cases m <;> rfl

theorem opModeOfCode_code (m : OpMode) : opModeOfCode (opModeCode m) = m := by cases m <;> rfl

theorem readStatus_writeStatus (st : PredictionStatus) (rest : Buffer) :
    readStatus (writeStatus st ++ rest) = .ok (st, rest) := by
  simp [readStatus, writeStatus, List.append_assoc, readScalar_writeScalar, predModeOfCode_code]

theorem readFoodSafe_writeFoodSafe (p : FoodSafe) (rest : Buffer) :
    readFoodSafe (writeFoodSafe p ++ rest) = .ok (p, rest) := by
  simp [readFoodSafe, writeFoodSafe, List.append_assoc, readScalar_writeScalar]

namespace Machine

/-! ### Bit fields (R62, R63) -/

/-- Bit `j` of a field is bit `o + j` of the string. -/
theorem testBit_field (buf : Buffer) (o w j : Nat) :
    (field buf o w).testBit j = (decide (j < w) && (leNat buf).testBit (o + j)) := by
  simp [field, Nat.testBit_mod_two_pow, Nat.testBit_shiftRight]

/-- Inserting a field sets the bits of its place and no other. -/
theorem testBit_insertField (V o w v j : Nat) :
    (insertField V o w v).testBit j = (V.testBit j || (decide (o ≤ j) && (decide (j - o < w) && v.testBit (j - o)))) := by
  simp [insertField, Nat.testBit_or, Nat.testBit_shiftLeft, Nat.testBit_mod_two_pow]

theorem field_lt (buf : Buffer) (o w : Nat) : field buf o w < 2 ^ w := Nat.mod_lt _ (Nat.two_pow_pos w)

end Machine

end Sys2Proof
end

