-- ==== Sys2Proof/Laws/Fields.lean ====
section
/-! SUPPORT. Reads of buffers and bit fields as arithmetic on the little-endian number of the string (R7, R62, R63), and
rounding (R8): one lemma for each, so that the CODEC proofs are linear arithmetic. -/

namespace Sys2Proof.Machine

/-- A byte of a string is a digit of its little-endian number (R7). -/
theorem byteAt_toNat (buf : Buffer) (k : Nat) : (byteAt buf k).toNat = leNat buf / 256 ^ k % 256 := by
  induction buf generalizing k with
  | nil => simp [byteAt, leNat]
  | cons b bs ih =>
    have hb := b.isLt
    cases k with
    | zero => simp [byteAt, leNat]; omega
    | succ k =>
      rw [show byteAt (b :: bs) (k + 1) = byteAt bs k from rfl, ih, leNat, pow_succ', ← Nat.div_div_eq_div_mul]
      congr 2
      omega

/-- A byte before the cut of a longer string (R65). -/
theorem byteAt_take (buf : Buffer) (k n : Nat) (h : k < n) : byteAt (buf.take n) k = byteAt buf k := by
  simp [byteAt, List.getD, h]

/-- A field as a quotient and a remainder (R62). -/
theorem field_eq (buf : Buffer) (o w : Nat) : field buf o w = leNat buf / 2 ^ o % 2 ^ w := by
  simp [field, Nat.shiftRight_eq_div_pow]

/-- A field put above everything set so far is added (R63). -/
theorem insertField_eq_add (V o w v : Nat) (h : V < 2 ^ o) : insertField V o w v = V + 2 ^ o * (v % 2 ^ w) := by
  rw [insertField, Nat.or_comm, ← Nat.shiftLeft_add_eq_or_of_lt h, Nat.shiftLeft_eq]
  ring

/-- A field put above everything set so far stays below its end. -/
theorem insertField_lt (V o w v : Nat) (h : V < 2 ^ o) : insertField V o w v < 2 ^ (o + w) := by
  have hv : v % 2 ^ w < 2 ^ w := Nat.mod_lt _ (Nat.two_pow_pos w)
  rw [insertField_eq_add V o w v h, pow_add]
  calc V + 2 ^ o * (v % 2 ^ w) < 2 ^ o * (v % 2 ^ w + 1) := by rw [Nat.mul_add]; omega
    _ ≤ 2 ^ o * 2 ^ w := Nat.mul_le_mul_left _ hv

/-- Rounding of a value that is not negative (R8). -/
theorem rnd_of_nonneg (n : Int) (d : Nat) (h : 0 ≤ n) : rnd n d = (2 * n + d) / (2 * d) := by
  obtain ⟨m, rfl⟩ := Int.eq_ofNat_of_zero_le h
  unfold rnd
  rcases Nat.eq_zero_or_pos m with rfl | hm
  · rcases Nat.eq_zero_or_pos d with rfl | hd
    · simp
    · simp
      symm
      rw [Int.ediv_eq_zero_of_lt] <;> omega
  · rw [Int.sign_eq_one_of_pos (by omega)]
    push_cast
    simp

/-- Rounding is symmetric: ties go away from zero on both sides (R8). -/
theorem rnd_neg (n : Int) (d : Nat) : rnd (-n) d = -rnd n d := by
  simp [rnd, Int.sign_neg]

/-- A raw code of the food-safe record is the rounded quotient modulo the field (R124). -/
theorem rawField_eq (w lsb : Nat) (v : S32) : ((rawField w lsb v : Nat) : Int) = rnd v.toInt lsb % 2 ^ w := by
  simp [rawField, BitVec.toNat_ofInt]
  exact Int.emod_nonneg _ (by positivity)

/-- The field of a byte at a place, as a quotient and a remainder (R6). -/
theorem byteField_eq (b : Byte) (f : FieldPlace) : byteField b f = b.toNat / 2 ^ f.lo % 2 ^ f.width := by
  simp [byteField, Nat.shiftRight_eq_div_pow]

/-- The field of a buffer at a place, as a quotient and a remainder (R62). -/
theorem fieldAt_eq (buf : Buffer) (f : FieldPlace) : fieldAt buf f = leNat buf / 2 ^ f.lo % 2 ^ f.width := field_eq _ _ _

/-- Bit `j` of a number after a field was put into its place (R63). -/
theorem testBit_insertAt (V : Nat) (f : FieldPlace) (v j : Nat) :
    (insertAt V f v).testBit j =
      (V.testBit j || (decide (f.lo ≤ j) && (decide (j - f.lo < f.width) && v.testBit (j - f.lo)))) :=
  testBit_insertField V f.lo f.width v j

/-- Lane `i` of a packed TemperatureSet (R111). -/
theorem packedTemp_toNat (buf : Buffer) (i : Nat) : (packedTemp buf i).toNat = leNat buf / 2 ^ (13 * i) % 8192 := by
  simp [packedTemp, field_eq]

end Sys2Proof.Machine
end

