-- ==== Sys2Proof/Laws/Memory.lean ====
section
/-! SUPPORT. Laws of the log store: what a read gives after an append, that every operation keeps the canonical form, and
that the gap search finds the least missing number. -/

namespace Sys2Proof.Machine

/-! ### Reading after writing -/

theorem TempLog.hasSeq_iff (l : TempLog) (n : Nat) : TempLog.hasSeq l n = true ↔ ∃ e ∈ l, e.seq.toNat = n := by
  simp [TempLog.hasSeq]

theorem TempLog.read_eq_none (l : TempLog) (seq : U32) (h : TempLog.hasSeq l seq.toNat = false) :
    TempLog.read l seq = none := by
  induction l with
  | nil => rfl
  | cons e l ih =>
    simp only [TempLog.hasSeq, List.any_cons, Bool.or_eq_false_iff, decide_eq_false_iff_not] at h
    have hne : e.seq ≠ seq := fun he => h.1 (by rw [he])
    simp only [TempLog.read, hne, if_false]
    exact ih h.2

theorem TempLog.read_isSome_iff (l : TempLog) (seq : U32) :
    (TempLog.read l seq).isSome = true ↔ TempLog.hasSeq l seq.toNat = true := by
  induction l with
  | nil => simp [TempLog.read, TempLog.hasSeq]
  | cons e l ih =>
    by_cases he : e.seq = seq
    · simp [TempLog.read, TempLog.hasSeq, he]
    · have hn : e.seq.toNat ≠ seq.toNat := fun h => he (BitVec.eq_of_toNat_eq h)
      simpa [TempLog.read, TempLog.hasSeq, he, hn] using ih

theorem TempLog.read_place_same (e : LogEntry) (l : TempLog) (h : TempLog.hasSeq l e.seq.toNat = false) :
    TempLog.read (TempLog.place e l) e.seq = some e.temps := by
  induction l with
  | nil => simp [TempLog.place, TempLog.read]
  | cons x l ih =>
    simp only [TempLog.hasSeq, List.any_cons, Bool.or_eq_false_iff, decide_eq_false_iff_not] at h
    have hne : x.seq ≠ e.seq := fun he => h.1 (by rw [he])
    unfold TempLog.place
    split
    · simp [TempLog.read]
    · simpa [TempLog.read, hne] using ih h.2

theorem TempLog.read_place_other (e : LogEntry) (l : TempLog) (seq : U32) (h : seq ≠ e.seq) :
    TempLog.read (TempLog.place e l) seq = TempLog.read l seq := by
  induction l with
  | nil => simp [TempLog.place, TempLog.read, Ne.symm h]
  | cons x l ih =>
    unfold TempLog.place
    split
    · simp [TempLog.read, Ne.symm h]
    · simp [TempLog.read, ih]

theorem Memory.log_put_same (id : U32) (l : TempLog) (m : Memory) : (Memory.put id l m).log id = some l := by
  induction m with
  | nil => simp [Memory.put, Memory.log]
  | cons x m ih =>
    obtain ⟨k, y⟩ := x
    unfold Memory.put
    split
    · rename_i hk; simp [Memory.log, hk]
    · split
      · simp [Memory.log]
      · rename_i hk _; simpa [Memory.log, hk] using ih

theorem Memory.log_put_other (id k : U32) (l : TempLog) (m : Memory) (h : k ≠ id) :
    (Memory.put id l m).log k = m.log k := by
  induction m with
  | nil => simp [Memory.put, Memory.log, Ne.symm h]
  | cons x m ih =>
    obtain ⟨j, y⟩ := x
    unfold Memory.put
    split
    · rename_i hj; subst hj; simp [Memory.log, Ne.symm h]
    · split
      · simp [Memory.log, Ne.symm h]
      · by_cases hjk : j = k
        · simp [Memory.log, hjk]
        · simpa [Memory.log, hjk] using ih

/-! ### What an append can do (R182, R183) -/

/-- Every case of `append`: the point is dropped (at capacity or stored already) or it is in its place. -/
theorem Memory.append_cases (p : Params) (id : U32) (e : LogEntry) (m : Memory) :
    Memory.append p id e m = m ∨
      (m.log id = none ∧ Memory.append p id e m = Memory.put id [e] m) ∨
      (∃ l, m.log id = some l ∧ TempLog.hasSeq l e.seq.toNat = false ∧
        Memory.append p id e m = Memory.put id (TempLog.place e l) m) := by
  unfold Memory.append
  cases hl : m.log id with
  | none =>
    simp only
    split
    · exact .inr (.inl ⟨trivial, rfl⟩)
    · exact .inl rfl
  | some l =>
    simp only
    split
    · exact .inl rfl
    · rename_i hseq
      split
      · exact .inr (.inr ⟨l, rfl, by simpa using hseq, rfl⟩)
      · exact .inl rfl

/-- Any other address reads as before. -/
theorem Memory.read_append_other (p : Params) (id : U32) (e : LogEntry) (m : Memory) (id' seq : U32)
    (h : id' ≠ id ∨ seq ≠ e.seq) : (Memory.append p id e m).read id' seq = m.read id' seq := by
  rcases Memory.append_cases p id e m with hm | ⟨hl, hm⟩ | ⟨l, hl, -, hm⟩
  · rw [hm]
  · rw [hm]
    by_cases hid : id' = id
    · subst hid
      have hseq : e.seq ≠ seq := fun hc => h.elim (fun h => h rfl) (fun h => h hc.symm)
      simp [Memory.read, Memory.log_put_same, hl, TempLog.read, hseq]
    · simp [Memory.read, Memory.log_put_other _ _ _ _ hid]
  · rw [hm]
    by_cases hid : id' = id
    · subst hid
      have hseq : seq ≠ e.seq := h.elim (fun h => absurd rfl h) (fun h => h)
      simp [Memory.read, Memory.log_put_same, hl, TempLog.read_place_other _ _ _ hseq]
    · simp [Memory.read, Memory.log_put_other _ _ _ _ hid]

/-- An entry, once stored, reads the same after any append (R28 (c), R182). -/
theorem Memory.read_append_stored (p : Params) (id : U32) (e : LogEntry) (m : Memory) (id' seq : U32) (t : TempSet)
    (h : m.read id' seq = some t) : (Memory.append p id e m).read id' seq = some t := by
  by_cases hother : id' ≠ id ∨ seq ≠ e.seq
  · rw [Memory.read_append_other p id e m id' seq hother, h]
  · obtain ⟨hid, hseq⟩ : id' = id ∧ seq = e.seq := by
      constructor <;> by_contra hc <;> exact hother (by tauto)
    subst hid hseq
    rcases Memory.append_cases p id' e m with hm | ⟨hl, -⟩ | ⟨l, hl, hn, -⟩
    · rw [hm, h]
    · simp [Memory.read, hl] at h
    · simp [Memory.read, hl, TempLog.read_eq_none l _ hn] at h

/-- Within both bounds a point that was not stored is stored (R182, R183). -/
theorem Memory.read_append_new (p : Params) (id : U32) (e : LogEntry) (m : Memory)
    (hs : m.log id = none → within p.maxSessions (m.length + 1) = true)
    (hd : within p.logDepth (((m.log id).getD []).length + 1) = true) (h : m.read id e.seq = none) :
    (Memory.append p id e m).read id e.seq = some e.temps := by
  unfold Memory.append
  cases hl : m.log id with
  | none =>
    rw [hl] at hd
    have hd1 : within p.logDepth 1 = true := hd
    simp [hs hl, hd1, Memory.read, Memory.log_put_same, TempLog.read]
  | some l =>
    rw [hl] at hd
    have hdl : within p.logDepth (l.length + 1) = true := hd
    have hn : TempLog.hasSeq l e.seq.toNat = false := by
      have h2 : TempLog.read l e.seq = none := by simpa [Memory.read, hl] using h
      by_contra hc
      have := (TempLog.read_isSome_iff l e.seq).2 (by simpa using hc)
      simp [h2] at this
    simp [hn, hdl, Memory.read, Memory.log_put_same, TempLog.read_place_same e l hn]

/-! ### The canonical form (R28) -/

theorem TempLog.mem_place (e x : LogEntry) (l : TempLog) : x ∈ TempLog.place e l ↔ x = e ∨ x ∈ l := by
  induction l with
  | nil => simp [TempLog.place]
  | cons y l ih =>
    unfold TempLog.place
    split
    · simp
    · simp only [List.mem_cons, ih]; tauto

theorem TempLog.place_rising (e : LogEntry) (l : TempLog)
    (h : (l.map fun x => x.seq.toNat).Pairwise (· < ·)) (hn : TempLog.hasSeq l e.seq.toNat = false) :
    ((TempLog.place e l).map fun x => x.seq.toNat).Pairwise (· < ·) := by
  induction l with
  | nil => simp [TempLog.place]
  | cons y l ih =>
    simp only [TempLog.hasSeq, List.any_cons, Bool.or_eq_false_iff, decide_eq_false_iff_not] at hn
    simp only [List.map_cons, List.pairwise_cons, List.mem_map, forall_exists_index, and_imp,
      forall_apply_eq_imp_iff₂] at h
    unfold TempLog.place
    split
    · rename_i hlt
      simp only [List.map_cons, List.pairwise_cons, List.mem_cons, List.mem_map, forall_eq_or_imp,
        forall_exists_index, and_imp, forall_apply_eq_imp_iff₂]
      exact ⟨⟨hlt, fun a ha => lt_trans hlt (h.1 a ha)⟩, h.1, h.2⟩
    · rename_i hge
      simp only [List.map_cons, List.pairwise_cons, List.mem_map, TempLog.mem_place, forall_exists_index, and_imp]
      refine ⟨?_, ih h.2 hn.2⟩
      rintro a x (rfl | hx) rfl
      · have := hn.1; omega
      · exact h.1 x hx

theorem Memory.mem_put (id : U32) (l : TempLog) (m : Memory) (x : U32 × TempLog) :
    x ∈ Memory.put id l m → x = (id, l) ∨ x ∈ m := by
  induction m with
  | nil => simp [Memory.put]
  | cons y m ih =>
    obtain ⟨k, z⟩ := y
    unfold Memory.put
    split
    · rename_i hk; subst hk; simp only [List.mem_cons]; tauto
    · split
      · simp
      · simp only [List.mem_cons]; tauto

theorem Memory.put_wf (id : U32) (l : TempLog) (m : Memory) (h : Memory.wf m) (hne : l ≠ [])
    (hl : (l.map fun x => x.seq.toNat).Pairwise (· < ·)) : Memory.wf (Memory.put id l m) := by
  refine ⟨?_, fun e he => ?_⟩
  · have hkeys := h.1
    clear h
    induction m with
    | nil => simp [Memory.put]
    | cons y m ih =>
      obtain ⟨k, z⟩ := y
      simp only [List.map_cons, List.pairwise_cons, List.mem_map, forall_exists_index, and_imp,
        forall_apply_eq_imp_iff₂] at hkeys
      unfold Memory.put
      split
      · simp only [List.map_cons, List.pairwise_cons, List.mem_map, forall_exists_index, and_imp,
          forall_apply_eq_imp_iff₂]
        exact hkeys
      · rename_i hk
        have hkn : k.toNat ≠ id.toNat := fun hc => hk (BitVec.eq_of_toNat_eq hc)
        split
        · rename_i hlt
          simp only [List.map_cons, List.pairwise_cons, List.mem_cons, List.mem_map, forall_eq_or_imp,
            forall_exists_index, and_imp, forall_apply_eq_imp_iff₂]
          exact ⟨⟨hlt, fun a ha => lt_trans hlt (hkeys.1 a ha)⟩, hkeys.1, hkeys.2⟩
        · simp only [List.map_cons, List.pairwise_cons, List.mem_map, forall_exists_index, and_imp]
          refine ⟨?_, ih hkeys.2⟩
          rintro a x hx rfl
          rcases Memory.mem_put _ _ _ _ hx with rfl | hx
          · simp only; omega
          · exact hkeys.1 x hx
  · rcases Memory.mem_put _ _ _ _ he with rfl | he
    · exact ⟨hne, hl⟩
    · exact h.2 e he

theorem Memory.mem_of_log (m : Memory) (id : U32) (l : TempLog) (h : m.log id = some l) : (id, l) ∈ m := by
  induction m with
  | nil => simp [Memory.log] at h
  | cons y m ih =>
    obtain ⟨k, z⟩ := y
    by_cases hk : k = id
    · simp only [Memory.log, hk, if_true, Option.some.injEq] at h
      simp [hk, h]
    · simp only [Memory.log, hk, if_false] at h
      exact List.mem_cons_of_mem _ (ih h)

/-- An append keeps the canonical form of the log store. -/
theorem Memory.append_wf (p : Params) (id : U32) (e : LogEntry) (m : Memory) (h : Memory.wf m) :
    Memory.wf (Memory.append p id e m) := by
  rcases Memory.append_cases p id e m with hm | ⟨-, hm⟩ | ⟨l, hl, hn, hm⟩
  · rwa [hm]
  · rw [hm]; exact Memory.put_wf _ _ _ h (by simp) (by simp)
  · rw [hm]
    have hlog := (h.2 _ (Memory.mem_of_log m id l hl)).2
    refine Memory.put_wf _ _ _ h (fun hc => ?_) (TempLog.place_rising e l hlog hn)
    have := (TempLog.mem_place e e l).2 (.inl rfl)
    simp [hc] at this

/-- The log store right after reset has the canonical form. -/
theorem reset_logs_wf : Memory.wf State.reset.logs := by decide

/-! ### The gap search (R185) -/

/-- Everything from `n` up to the number the search gives is stored. -/
theorem leastFrom_stored (fuel n : Nat) (l : TempLog) :
    n ≤ leastFrom fuel n l ∧ ∀ k, n ≤ k → k < leastFrom fuel n l → TempLog.hasSeq l k = true := by
  induction fuel generalizing n with
  | zero => exact ⟨le_refl _, fun k h1 h2 => absurd h2 (by simp [leastFrom]; omega)⟩
  | succ fuel ih =>
    unfold leastFrom
    split
    · rename_i hn
      obtain ⟨h1, h2⟩ := ih (n + 1)
      refine ⟨by omega, fun k hk hk2 => ?_⟩
      rcases Nat.eq_or_lt_of_le hk with rfl | hlt
      · exact hn
      · exact h2 k hlt hk2
    · exact ⟨le_refl _, fun k h1 h2 => absurd h2 (by omega)⟩

/-- The search ends at a number that is not stored, or it used up its fuel. -/
theorem leastFrom_end (fuel n : Nat) (l : TempLog) :
    TempLog.hasSeq l (leastFrom fuel n l) = false ∨ leastFrom fuel n l = n + fuel := by
  induction fuel generalizing n with
  | zero => exact .inr rfl
  | succ fuel ih =>
    unfold leastFrom
    split
    · rcases ih (n + 1) with h | h
      · exact .inl h
      · exact .inr (by omega)
    · rename_i hn; exact .inl (by simpa using hn)

/-- A log of `k` entries does not hold `k + 1` consecutive numbers, so the search never runs out. -/
theorem leastFrom_missing (n : Nat) (l : TempLog) : TempLog.hasSeq l (leastFrom l.length n l) = false := by
  rcases leastFrom_end l.length n l with h | h
  · exact h
  · by_contra hc
    have hc : TempLog.hasSeq l (leastFrom l.length n l) = true := by simpa using hc
    have hall : ∀ k, k < l.length + 1 → n + k ∈ l.map fun e => e.seq.toNat := by
      intro k hk
      have hs : TempLog.hasSeq l (n + k) = true := by
        rcases Nat.lt_or_ge (n + k) (leastFrom l.length n l) with hlt | hge
        · exact (leastFrom_stored l.length n l).2 _ (by omega) hlt
        · have : n + k = leastFrom l.length n l := by omega
          rwa [this]
      obtain ⟨e, he, hen⟩ := (TempLog.hasSeq_iff l (n + k)).1 hs
      exact List.mem_map.2 ⟨e, he, hen⟩
    have hsub : ((List.range (l.length + 1)).map (n + ·)).Subperm (l.map fun e => e.seq.toNat) := by
      apply List.Nodup.subperm
      · exact List.Nodup.map (fun a b h => by simpa using h) List.nodup_range
      · intro a ha
        obtain ⟨k, hk, rfl⟩ := List.mem_map.1 ha
        exact hall k (List.mem_range.1 hk)
    have := hsub.length_le
    simp at this

/-- What `first_missing` gives is the least number of the range that is not stored. -/
theorem firstMissing_some (l : TempLog) (min max m : U32) (h : firstMissing l min max = some m) :
    min.toNat ≤ m.toNat ∧ m.toNat ≤ max.toNat ∧ TempLog.hasSeq l m.toNat = false ∧
      ∀ k, min.toNat ≤ k → k < m.toNat → TempLog.hasSeq l k = true := by
  unfold firstMissing at h
  split at h
  · cases h
  · simp only at h
    split at h
    · cases h
    · rename_i hle
      split at h
      · cases h
      · simp only [Option.some.injEq] at h
        have hmax := max.isLt
        have hm : m.toNat = leastFrom l.length min.toNat l := by
          rw [← h, BitVec.toNat_ofNat]
          exact Nat.mod_eq_of_lt (by omega)
        obtain ⟨h1, h2⟩ := leastFrom_stored l.length min.toNat l
        rw [hm]
        exact ⟨h1, by omega, leastFrom_missing _ _, h2⟩

end Sys2Proof.Machine
end

