-- ==== Sys2Proof/Laws/State.lean ====
section
/-! SUPPORT. One lemma per field and per named update of State, true by rfl: no proof about a later state unfolds a record
update. -/

namespace Sys2Proof.Machine

/-! ### respond -/

@[simp] theorem respond_timeMs (r : Response) (s : State) : (respond r s).timeMs = s.timeMs := rfl
@[simp] theorem respond_sessValid (r : Response) (s : State) : (respond r s).sessValid = s.sessValid := rfl
@[simp] theorem respond_sessId (r : Response) (s : State) : (respond r s).sessId = s.sessId := rfl
@[simp] theorem respond_sessPeriodMs (r : Response) (s : State) : (respond r s).sessPeriodMs = s.sessPeriodMs := rfl
@[simp] theorem respond_logs (r : Response) (s : State) : (respond r s).logs = s.logs := rfl
@[simp] theorem respond_reqOut (r : Response) (s : State) : (respond r s).reqOut = s.reqOut := rfl
@[simp] theorem respond_reqMin (r : Response) (s : State) : (respond r s).reqMin = s.reqMin := rfl
@[simp] theorem respond_reqMax (r : Response) (s : State) : (respond r s).reqMax = s.reqMax := rfl
@[simp] theorem respond_upToDate (r : Response) (s : State) : (respond r s).upToDate = s.upToDate := rfl
@[simp] theorem respond_irValid (r : Response) (s : State) : (respond r s).irValid = s.irValid := rfl
@[simp] theorem respond_irValue (r : Response) (s : State) : (respond r s).irValue = s.irValue := rfl
@[simp] theorem respond_irTs (r : Response) (s : State) : (respond r s).irTs = s.irTs := rfl
@[simp] theorem respond_irHopPresent (r : Response) (s : State) : (respond r s).irHopPresent = s.irHopPresent := rfl
@[simp] theorem respond_irHop (r : Response) (s : State) : (respond r s).irHop = s.irHop := rfl
@[simp] theorem respond_prevInfoValid (r : Response) (s : State) : (respond r s).prevInfoValid = s.prevInfoValid := rfl
@[simp] theorem respond_prevInfo (r : Response) (s : State) : (respond r s).prevInfo = s.prevInfo := rfl
@[simp] theorem respond_prevSeqValid (r : Response) (s : State) : (respond r s).prevSeqValid = s.prevSeqValid := rfl
@[simp] theorem respond_prevSeq (r : Response) (s : State) : (respond r s).prevSeq = s.prevSeq := rfl
@[simp] theorem respond_targetSeconds (r : Response) (s : State) : (respond r s).targetSeconds = s.targetSeconds := rfl
@[simp] theorem respond_stepPerTick (r : Response) (s : State) : (respond r s).stepPerTick = s.stepPerTick := rfl
@[simp] theorem respond_currentMs (r : Response) (s : State) : (respond r s).currentMs = s.currentMs := rfl
@[simp] theorem respond_tickerArmed (r : Response) (s : State) : (respond r s).tickerArmed = s.tickerArmed := rfl
@[simp] theorem respond_tickerDeadline (r : Response) (s : State) : (respond r s).tickerDeadline = s.tickerDeadline := rfl
@[simp] theorem respond_wdogArmed (r : Response) (s : State) : (respond r s).wdogArmed = s.wdogArmed := rfl
@[simp] theorem respond_wdogDeadline (r : Response) (s : State) : (respond r s).wdogDeadline = s.wdogDeadline := rfl
@[simp] theorem respond_predStale (r : Response) (s : State) : (respond r s).predStale = s.predStale := rfl
@[simp] theorem respond_tx (r : Response) (s : State) : (respond r s).tx = s.tx := rfl
@[simp] theorem respond_pub (r : Response) (s : State) : (respond r s).pub = s.pub := rfl
@[simp] theorem respond_rsp (r : Response) (s : State) : (respond r s).rsp = s.rsp ++ [r] := rfl
@[simp] theorem respond_agenda (r : Response) (s : State) : (respond r s).agenda = s.agenda := rfl
@[simp] theorem respond_params (r : Response) (s : State) : (respond r s).params = s.params := rfl
@[simp] theorem respond_freeCount (r : Response) (s : State) : (respond r s).freeCount = s.freeCount := rfl

/-! ### answerIllegal -/

@[simp] theorem answerIllegal_timeMs (s : State) : (answerIllegal s).timeMs = s.timeMs := rfl
@[simp] theorem answerIllegal_sessValid (s : State) : (answerIllegal s).sessValid = s.sessValid := rfl
@[simp] theorem answerIllegal_sessId (s : State) : (answerIllegal s).sessId = s.sessId := rfl
@[simp] theorem answerIllegal_sessPeriodMs (s : State) : (answerIllegal s).sessPeriodMs = s.sessPeriodMs := rfl
@[simp] theorem answerIllegal_logs (s : State) : (answerIllegal s).logs = s.logs := rfl
@[simp] theorem answerIllegal_reqOut (s : State) : (answerIllegal s).reqOut = s.reqOut := rfl
@[simp] theorem answerIllegal_reqMin (s : State) : (answerIllegal s).reqMin = s.reqMin := rfl
@[simp] theorem answerIllegal_reqMax (s : State) : (answerIllegal s).reqMax = s.reqMax := rfl
@[simp] theorem answerIllegal_upToDate (s : State) : (answerIllegal s).upToDate = s.upToDate := rfl
@[simp] theorem answerIllegal_irValid (s : State) : (answerIllegal s).irValid = s.irValid := rfl
@[simp] theorem answerIllegal_irValue (s : State) : (answerIllegal s).irValue = s.irValue := rfl
@[simp] theorem answerIllegal_irTs (s : State) : (answerIllegal s).irTs = s.irTs := rfl
@[simp] theorem answerIllegal_irHopPresent (s : State) : (answerIllegal s).irHopPresent = s.irHopPresent := rfl
@[simp] theorem answerIllegal_irHop (s : State) : (answerIllegal s).irHop = s.irHop := rfl
@[simp] theorem answerIllegal_prevInfoValid (s : State) : (answerIllegal s).prevInfoValid = s.prevInfoValid := rfl
@[simp] theorem answerIllegal_prevInfo (s : State) : (answerIllegal s).prevInfo = s.prevInfo := rfl
@[simp] theorem answerIllegal_prevSeqValid (s : State) : (answerIllegal s).prevSeqValid = s.prevSeqValid := rfl
@[simp] theorem answerIllegal_prevSeq (s : State) : (answerIllegal s).prevSeq = s.prevSeq := rfl
@[simp] theorem answerIllegal_targetSeconds (s : State) : (answerIllegal s).targetSeconds = s.targetSeconds := rfl
@[simp] theorem answerIllegal_stepPerTick (s : State) : (answerIllegal s).stepPerTick = s.stepPerTick := rfl
@[simp] theorem answerIllegal_currentMs (s : State) : (answerIllegal s).currentMs = s.currentMs := rfl
@[simp] theorem answerIllegal_tickerArmed (s : State) : (answerIllegal s).tickerArmed = s.tickerArmed := rfl
@[simp] theorem answerIllegal_tickerDeadline (s : State) : (answerIllegal s).tickerDeadline = s.tickerDeadline := rfl
@[simp] theorem answerIllegal_wdogArmed (s : State) : (answerIllegal s).wdogArmed = s.wdogArmed := rfl
@[simp] theorem answerIllegal_wdogDeadline (s : State) : (answerIllegal s).wdogDeadline = s.wdogDeadline := rfl
@[simp] theorem answerIllegal_predStale (s : State) : (answerIllegal s).predStale = s.predStale := rfl
@[simp] theorem answerIllegal_tx (s : State) : (answerIllegal s).tx = s.tx := rfl
@[simp] theorem answerIllegal_pub (s : State) : (answerIllegal s).pub = s.pub := rfl
@[simp] theorem answerIllegal_rsp (s : State) : (answerIllegal s).rsp = s.rsp ++ [.illegal] := rfl
@[simp] theorem answerIllegal_agenda (s : State) : (answerIllegal s).agenda = s.agenda := rfl
@[simp] theorem answerIllegal_params (s : State) : (answerIllegal s).params = s.params := rfl
@[simp] theorem answerIllegal_freeCount (s : State) : (answerIllegal s).freeCount = s.freeCount := rfl

/-! ### transmit -/

@[simp] theorem transmit_timeMs (f : Buffer) (s : State) : (transmit f s).timeMs = s.timeMs := rfl
@[simp] theorem transmit_sessValid (f : Buffer) (s : State) : (transmit f s).sessValid = s.sessValid := rfl
@[simp] theorem transmit_sessId (f : Buffer) (s : State) : (transmit f s).sessId = s.sessId := rfl
@[simp] theorem transmit_sessPeriodMs (f : Buffer) (s : State) : (transmit f s).sessPeriodMs = s.sessPeriodMs := rfl
@[simp] theorem transmit_logs (f : Buffer) (s : State) : (transmit f s).logs = s.logs := rfl
@[simp] theorem transmit_reqOut (f : Buffer) (s : State) : (transmit f s).reqOut = s.reqOut := rfl
@[simp] theorem transmit_reqMin (f : Buffer) (s : State) : (transmit f s).reqMin = s.reqMin := rfl
@[simp] theorem transmit_reqMax (f : Buffer) (s : State) : (transmit f s).reqMax = s.reqMax := rfl
@[simp] theorem transmit_upToDate (f : Buffer) (s : State) : (transmit f s).upToDate = s.upToDate := rfl
@[simp] theorem transmit_irValid (f : Buffer) (s : State) : (transmit f s).irValid = s.irValid := rfl
@[simp] theorem transmit_irValue (f : Buffer) (s : State) : (transmit f s).irValue = s.irValue := rfl
@[simp] theorem transmit_irTs (f : Buffer) (s : State) : (transmit f s).irTs = s.irTs := rfl
@[simp] theorem transmit_irHopPresent (f : Buffer) (s : State) : (transmit f s).irHopPresent = s.irHopPresent := rfl
@[simp] theorem transmit_irHop (f : Buffer) (s : State) : (transmit f s).irHop = s.irHop := rfl
@[simp] theorem transmit_prevInfoValid (f : Buffer) (s : State) : (transmit f s).prevInfoValid = s.prevInfoValid := rfl
@[simp] theorem transmit_prevInfo (f : Buffer) (s : State) : (transmit f s).prevInfo = s.prevInfo := rfl
@[simp] theorem transmit_prevSeqValid (f : Buffer) (s : State) : (transmit f s).prevSeqValid = s.prevSeqValid := rfl
@[simp] theorem transmit_prevSeq (f : Buffer) (s : State) : (transmit f s).prevSeq = s.prevSeq := rfl
@[simp] theorem transmit_targetSeconds (f : Buffer) (s : State) : (transmit f s).targetSeconds = s.targetSeconds := rfl
@[simp] theorem transmit_stepPerTick (f : Buffer) (s : State) : (transmit f s).stepPerTick = s.stepPerTick := rfl
@[simp] theorem transmit_currentMs (f : Buffer) (s : State) : (transmit f s).currentMs = s.currentMs := rfl
@[simp] theorem transmit_tickerArmed (f : Buffer) (s : State) : (transmit f s).tickerArmed = s.tickerArmed := rfl
@[simp] theorem transmit_tickerDeadline (f : Buffer) (s : State) : (transmit f s).tickerDeadline = s.tickerDeadline := rfl
@[simp] theorem transmit_wdogArmed (f : Buffer) (s : State) : (transmit f s).wdogArmed = s.wdogArmed := rfl
@[simp] theorem transmit_wdogDeadline (f : Buffer) (s : State) : (transmit f s).wdogDeadline = s.wdogDeadline := rfl
@[simp] theorem transmit_predStale (f : Buffer) (s : State) : (transmit f s).predStale = s.predStale := rfl
@[simp] theorem transmit_tx (f : Buffer) (s : State) : (transmit f s).tx = s.tx ++ [f] := rfl
@[simp] theorem transmit_pub (f : Buffer) (s : State) : (transmit f s).pub = s.pub := rfl
@[simp] theorem transmit_rsp (f : Buffer) (s : State) : (transmit f s).rsp = s.rsp := rfl
@[simp] theorem transmit_agenda (f : Buffer) (s : State) : (transmit f s).agenda = s.agenda := rfl
@[simp] theorem transmit_params (f : Buffer) (s : State) : (transmit f s).params = s.params := rfl
@[simp] theorem transmit_freeCount (f : Buffer) (s : State) : (transmit f s).freeCount = s.freeCount := rfl

/-! ### publish -/

@[simp] theorem publish_timeMs (x : Option PredictionInfo) (s : State) : (publish x s).timeMs = s.timeMs := rfl
@[simp] theorem publish_sessValid (x : Option PredictionInfo) (s : State) : (publish x s).sessValid = s.sessValid := rfl
@[simp] theorem publish_sessId (x : Option PredictionInfo) (s : State) : (publish x s).sessId = s.sessId := rfl
@[simp] theorem publish_sessPeriodMs (x : Option PredictionInfo) (s : State) : (publish x s).sessPeriodMs = s.sessPeriodMs := rfl
@[simp] theorem publish_logs (x : Option PredictionInfo) (s : State) : (publish x s).logs = s.logs := rfl
@[simp] theorem publish_reqOut (x : Option PredictionInfo) (s : State) : (publish x s).reqOut = s.reqOut := rfl
@[simp] theorem publish_reqMin (x : Option PredictionInfo) (s : State) : (publish x s).reqMin = s.reqMin := rfl
@[simp] theorem publish_reqMax (x : Option PredictionInfo) (s : State) : (publish x s).reqMax = s.reqMax := rfl
@[simp] theorem publish_upToDate (x : Option PredictionInfo) (s : State) : (publish x s).upToDate = s.upToDate := rfl
@[simp] theorem publish_irValid (x : Option PredictionInfo) (s : State) : (publish x s).irValid = s.irValid := rfl
@[simp] theorem publish_irValue (x : Option PredictionInfo) (s : State) : (publish x s).irValue = s.irValue := rfl
@[simp] theorem publish_irTs (x : Option PredictionInfo) (s : State) : (publish x s).irTs = s.irTs := rfl
@[simp] theorem publish_irHopPresent (x : Option PredictionInfo) (s : State) : (publish x s).irHopPresent = s.irHopPresent := rfl
@[simp] theorem publish_irHop (x : Option PredictionInfo) (s : State) : (publish x s).irHop = s.irHop := rfl
@[simp] theorem publish_prevInfoValid (x : Option PredictionInfo) (s : State) : (publish x s).prevInfoValid = s.prevInfoValid := rfl
@[simp] theorem publish_prevInfo (x : Option PredictionInfo) (s : State) : (publish x s).prevInfo = s.prevInfo := rfl
@[simp] theorem publish_prevSeqValid (x : Option PredictionInfo) (s : State) : (publish x s).prevSeqValid = s.prevSeqValid := rfl
@[simp] theorem publish_prevSeq (x : Option PredictionInfo) (s : State) : (publish x s).prevSeq = s.prevSeq := rfl
@[simp] theorem publish_targetSeconds (x : Option PredictionInfo) (s : State) : (publish x s).targetSeconds = s.targetSeconds := rfl
@[simp] theorem publish_stepPerTick (x : Option PredictionInfo) (s : State) : (publish x s).stepPerTick = s.stepPerTick := rfl
@[simp] theorem publish_currentMs (x : Option PredictionInfo) (s : State) : (publish x s).currentMs = s.currentMs := rfl
@[simp] theorem publish_tickerArmed (x : Option PredictionInfo) (s : State) : (publish x s).tickerArmed = s.tickerArmed := rfl
@[simp] theorem publish_tickerDeadline (x : Option PredictionInfo) (s : State) : (publish x s).tickerDeadline = s.tickerDeadline := rfl
@[simp] theorem publish_wdogArmed (x : Option PredictionInfo) (s : State) : (publish x s).wdogArmed = s.wdogArmed := rfl
@[simp] theorem publish_wdogDeadline (x : Option PredictionInfo) (s : State) : (publish x s).wdogDeadline = s.wdogDeadline := rfl
@[simp] theorem publish_predStale (x : Option PredictionInfo) (s : State) : (publish x s).predStale = s.predStale := rfl
@[simp] theorem publish_tx (x : Option PredictionInfo) (s : State) : (publish x s).tx = s.tx := rfl
@[simp] theorem publish_pub (x : Option PredictionInfo) (s : State) : (publish x s).pub = s.pub ++ [x] := rfl
@[simp] theorem publish_rsp (x : Option PredictionInfo) (s : State) : (publish x s).rsp = s.rsp := rfl
@[simp] theorem publish_agenda (x : Option PredictionInfo) (s : State) : (publish x s).agenda = s.agenda := rfl
@[simp] theorem publish_params (x : Option PredictionInfo) (s : State) : (publish x s).params = s.params := rfl
@[simp] theorem publish_freeCount (x : Option PredictionInfo) (s : State) : (publish x s).freeCount = s.freeCount := rfl

/-! ### drawn -/

@[simp] theorem drawn_timeMs (s : State) : (drawn s).timeMs = s.timeMs := rfl
@[simp] theorem drawn_sessValid (s : State) : (drawn s).sessValid = s.sessValid := rfl
@[simp] theorem drawn_sessId (s : State) : (drawn s).sessId = s.sessId := rfl
@[simp] theorem drawn_sessPeriodMs (s : State) : (drawn s).sessPeriodMs = s.sessPeriodMs := rfl
@[simp] theorem drawn_logs (s : State) : (drawn s).logs = s.logs := rfl
@[simp] theorem drawn_reqOut (s : State) : (drawn s).reqOut = s.reqOut := rfl
@[simp] theorem drawn_reqMin (s : State) : (drawn s).reqMin = s.reqMin := rfl
@[simp] theorem drawn_reqMax (s : State) : (drawn s).reqMax = s.reqMax := rfl
@[simp] theorem drawn_upToDate (s : State) : (drawn s).upToDate = s.upToDate := rfl
@[simp] theorem drawn_irValid (s : State) : (drawn s).irValid = s.irValid := rfl
@[simp] theorem drawn_irValue (s : State) : (drawn s).irValue = s.irValue := rfl
@[simp] theorem drawn_irTs (s : State) : (drawn s).irTs = s.irTs := rfl
@[simp] theorem drawn_irHopPresent (s : State) : (drawn s).irHopPresent = s.irHopPresent := rfl
@[simp] theorem drawn_irHop (s : State) : (drawn s).irHop = s.irHop := rfl
@[simp] theorem drawn_prevInfoValid (s : State) : (drawn s).prevInfoValid = s.prevInfoValid := rfl
@[simp] theorem drawn_prevInfo (s : State) : (drawn s).prevInfo = s.prevInfo := rfl
@[simp] theorem drawn_prevSeqValid (s : State) : (drawn s).prevSeqValid = s.prevSeqValid := rfl
@[simp] theorem drawn_prevSeq (s : State) : (drawn s).prevSeq = s.prevSeq := rfl
@[simp] theorem drawn_targetSeconds (s : State) : (drawn s).targetSeconds = s.targetSeconds := rfl
@[simp] theorem drawn_stepPerTick (s : State) : (drawn s).stepPerTick = s.stepPerTick := rfl
@[simp] theorem drawn_currentMs (s : State) : (drawn s).currentMs = s.currentMs := rfl
@[simp] theorem drawn_tickerArmed (s : State) : (drawn s).tickerArmed = s.tickerArmed := rfl
@[simp] theorem drawn_tickerDeadline (s : State) : (drawn s).tickerDeadline = s.tickerDeadline := rfl
@[simp] theorem drawn_wdogArmed (s : State) : (drawn s).wdogArmed = s.wdogArmed := rfl
@[simp] theorem drawn_wdogDeadline (s : State) : (drawn s).wdogDeadline = s.wdogDeadline := rfl
@[simp] theorem drawn_predStale (s : State) : (drawn s).predStale = s.predStale := rfl
@[simp] theorem drawn_tx (s : State) : (drawn s).tx = s.tx := rfl
@[simp] theorem drawn_pub (s : State) : (drawn s).pub = s.pub := rfl
@[simp] theorem drawn_rsp (s : State) : (drawn s).rsp = s.rsp := rfl
@[simp] theorem drawn_agenda (s : State) : (drawn s).agenda = s.agenda := rfl
@[simp] theorem drawn_params (s : State) : (drawn s).params = s.params := rfl
@[simp] theorem drawn_freeCount (s : State) : (drawn s).freeCount = s.freeCount + 1 := rfl

/-! ### withAgenda -/

@[simp] theorem withAgenda_timeMs (rest : List Event) (s : State) : (withAgenda rest s).timeMs = s.timeMs := rfl
@[simp] theorem withAgenda_sessValid (rest : List Event) (s : State) : (withAgenda rest s).sessValid = s.sessValid := rfl
@[simp] theorem withAgenda_sessId (rest : List Event) (s : State) : (withAgenda rest s).sessId = s.sessId := rfl
@[simp] theorem withAgenda_sessPeriodMs (rest : List Event) (s : State) : (withAgenda rest s).sessPeriodMs = s.sessPeriodMs := rfl
@[simp] theorem withAgenda_logs (rest : List Event) (s : State) : (withAgenda rest s).logs = s.logs := rfl
@[simp] theorem withAgenda_reqOut (rest : List Event) (s : State) : (withAgenda rest s).reqOut = s.reqOut := rfl
@[simp] theorem withAgenda_reqMin (rest : List Event) (s : State) : (withAgenda rest s).reqMin = s.reqMin := rfl
@[simp] theorem withAgenda_reqMax (rest : List Event) (s : State) : (withAgenda rest s).reqMax = s.reqMax := rfl
@[simp] theorem withAgenda_upToDate (rest : List Event) (s : State) : (withAgenda rest s).upToDate = s.upToDate := rfl
@[simp] theorem withAgenda_irValid (rest : List Event) (s : State) : (withAgenda rest s).irValid = s.irValid := rfl
@[simp] theorem withAgenda_irValue (rest : List Event) (s : State) : (withAgenda rest s).irValue = s.irValue := rfl
@[simp] theorem withAgenda_irTs (rest : List Event) (s : State) : (withAgenda rest s).irTs = s.irTs := rfl
@[simp] theorem withAgenda_irHopPresent (rest : List Event) (s : State) : (withAgenda rest s).irHopPresent = s.irHopPresent := rfl
@[simp] theorem withAgenda_irHop (rest : List Event) (s : State) : (withAgenda rest s).irHop = s.irHop := rfl
@[simp] theorem withAgenda_prevInfoValid (rest : List Event) (s : State) : (withAgenda rest s).prevInfoValid = s.prevInfoValid := rfl
@[simp] theorem withAgenda_prevInfo (rest : List Event) (s : State) : (withAgenda rest s).prevInfo = s.prevInfo := rfl
@[simp] theorem withAgenda_prevSeqValid (rest : List Event) (s : State) : (withAgenda rest s).prevSeqValid = s.prevSeqValid := rfl
@[simp] theorem withAgenda_prevSeq (rest : List Event) (s : State) : (withAgenda rest s).prevSeq = s.prevSeq := rfl
@[simp] theorem withAgenda_targetSeconds (rest : List Event) (s : State) : (withAgenda rest s).targetSeconds = s.targetSeconds := rfl
@[simp] theorem withAgenda_stepPerTick (rest : List Event) (s : State) : (withAgenda rest s).stepPerTick = s.stepPerTick := rfl
@[simp] theorem withAgenda_currentMs (rest : List Event) (s : State) : (withAgenda rest s).currentMs = s.currentMs := rfl
@[simp] theorem withAgenda_tickerArmed (rest : List Event) (s : State) : (withAgenda rest s).tickerArmed = s.tickerArmed := rfl
@[simp] theorem withAgenda_tickerDeadline (rest : List Event) (s : State) : (withAgenda rest s).tickerDeadline = s.tickerDeadline := rfl
@[simp] theorem withAgenda_wdogArmed (rest : List Event) (s : State) : (withAgenda rest s).wdogArmed = s.wdogArmed := rfl
@[simp] theorem withAgenda_wdogDeadline (rest : List Event) (s : State) : (withAgenda rest s).wdogDeadline = s.wdogDeadline := rfl
@[simp] theorem withAgenda_predStale (rest : List Event) (s : State) : (withAgenda rest s).predStale = s.predStale := rfl
@[simp] theorem withAgenda_tx (rest : List Event) (s : State) : (withAgenda rest s).tx = s.tx := rfl
@[simp] theorem withAgenda_pub (rest : List Event) (s : State) : (withAgenda rest s).pub = s.pub := rfl
@[simp] theorem withAgenda_rsp (rest : List Event) (s : State) : (withAgenda rest s).rsp = s.rsp := rfl
@[simp] theorem withAgenda_agenda (rest : List Event) (s : State) : (withAgenda rest s).agenda = rest := rfl
@[simp] theorem withAgenda_params (rest : List Event) (s : State) : (withAgenda rest s).params = s.params := rfl
@[simp] theorem withAgenda_freeCount (rest : List Event) (s : State) : (withAgenda rest s).freeCount = s.freeCount := rfl

/-! ### withFetchWord -/

@[simp] theorem withFetchWord_timeMs (s : State) (nbits w : Nat) : (s.withFetchWord nbits w).timeMs = s.timeMs := rfl
@[simp] theorem withFetchWord_sessValid (s : State) (nbits w : Nat) : (s.withFetchWord nbits w).sessValid = s.sessValid := rfl
@[simp] theorem withFetchWord_sessId (s : State) (nbits w : Nat) : (s.withFetchWord nbits w).sessId = s.sessId := rfl
@[simp] theorem withFetchWord_sessPeriodMs (s : State) (nbits w : Nat) : (s.withFetchWord nbits w).sessPeriodMs = s.sessPeriodMs := rfl
@[simp] theorem withFetchWord_logs (s : State) (nbits w : Nat) : (s.withFetchWord nbits w).logs = s.logs := rfl
@[simp] theorem withFetchWord_reqOut (s : State) (nbits w : Nat) : (s.withFetchWord nbits w).reqOut = s.reqOut := rfl
@[simp] theorem withFetchWord_reqMin (s : State) (nbits w : Nat) : (s.withFetchWord nbits w).reqMin = s.reqMin := rfl
@[simp] theorem withFetchWord_reqMax (s : State) (nbits w : Nat) : (s.withFetchWord nbits w).reqMax = s.reqMax := rfl
@[simp] theorem withFetchWord_upToDate (s : State) (nbits w : Nat) : (s.withFetchWord nbits w).upToDate = s.upToDate := rfl
@[simp] theorem withFetchWord_irValid (s : State) (nbits w : Nat) : (s.withFetchWord nbits w).irValid = s.irValid := rfl
@[simp] theorem withFetchWord_irValue (s : State) (nbits w : Nat) : (s.withFetchWord nbits w).irValue = s.irValue := rfl
@[simp] theorem withFetchWord_irTs (s : State) (nbits w : Nat) : (s.withFetchWord nbits w).irTs = s.irTs := rfl
@[simp] theorem withFetchWord_irHopPresent (s : State) (nbits w : Nat) : (s.withFetchWord nbits w).irHopPresent = s.irHopPresent := rfl
@[simp] theorem withFetchWord_irHop (s : State) (nbits w : Nat) : (s.withFetchWord nbits w).irHop = s.irHop := rfl
@[simp] theorem withFetchWord_prevInfoValid (s : State) (nbits w : Nat) : (s.withFetchWord nbits w).prevInfoValid = s.prevInfoValid := rfl
@[simp] theorem withFetchWord_prevInfo (s : State) (nbits w : Nat) : (s.withFetchWord nbits w).prevInfo = s.prevInfo := rfl
@[simp] theorem withFetchWord_prevSeqValid (s : State) (nbits w : Nat) : (s.withFetchWord nbits w).prevSeqValid = s.prevSeqValid := rfl
@[simp] theorem withFetchWord_prevSeq (s : State) (nbits w : Nat) : (s.withFetchWord nbits w).prevSeq = s.prevSeq := rfl
@[simp] theorem withFetchWord_targetSeconds (s : State) (nbits w : Nat) : (s.withFetchWord nbits w).targetSeconds = s.targetSeconds := rfl
@[simp] theorem withFetchWord_stepPerTick (s : State) (nbits w : Nat) : (s.withFetchWord nbits w).stepPerTick = s.stepPerTick := rfl
@[simp] theorem withFetchWord_currentMs (s : State) (nbits w : Nat) : (s.withFetchWord nbits w).currentMs = s.currentMs := rfl
@[simp] theorem withFetchWord_tickerArmed (s : State) (nbits w : Nat) : (s.withFetchWord nbits w).tickerArmed = s.tickerArmed := rfl
@[simp] theorem withFetchWord_tickerDeadline (s : State) (nbits w : Nat) : (s.withFetchWord nbits w).tickerDeadline = s.tickerDeadline := rfl
@[simp] theorem withFetchWord_wdogArmed (s : State) (nbits w : Nat) : (s.withFetchWord nbits w).wdogArmed = s.wdogArmed := rfl
@[simp] theorem withFetchWord_wdogDeadline (s : State) (nbits w : Nat) : (s.withFetchWord nbits w).wdogDeadline = s.wdogDeadline := rfl
@[simp] theorem withFetchWord_predStale (s : State) (nbits w : Nat) : (s.withFetchWord nbits w).predStale = s.predStale := rfl
@[simp] theorem withFetchWord_tx (s : State) (nbits w : Nat) : (s.withFetchWord nbits w).tx = s.tx := rfl
@[simp] theorem withFetchWord_pub (s : State) (nbits w : Nat) : (s.withFetchWord nbits w).pub = s.pub := rfl
@[simp] theorem withFetchWord_rsp (s : State) (nbits w : Nat) : (s.withFetchWord nbits w).rsp = s.rsp := rfl
@[simp] theorem withFetchWord_agenda (s : State) (nbits w : Nat) : (s.withFetchWord nbits w).agenda = eventOfWord nbits w :: s.agenda := rfl
@[simp] theorem withFetchWord_params (s : State) (nbits w : Nat) : (s.withFetchWord nbits w).params = s.params := rfl
@[simp] theorem withFetchWord_freeCount (s : State) (nbits w : Nat) : (s.withFetchWord nbits w).freeCount = s.freeCount := rfl

/-! ### retire -/

@[simp] theorem retire_timeMs (seq : U32) (s : State) : (retire seq s).timeMs = s.timeMs := rfl
@[simp] theorem retire_sessValid (seq : U32) (s : State) : (retire seq s).sessValid = s.sessValid := rfl
@[simp] theorem retire_sessId (seq : U32) (s : State) : (retire seq s).sessId = s.sessId := rfl
@[simp] theorem retire_sessPeriodMs (seq : U32) (s : State) : (retire seq s).sessPeriodMs = s.sessPeriodMs := rfl
@[simp] theorem retire_logs (seq : U32) (s : State) : (retire seq s).logs = s.logs := rfl
@[simp] theorem retire_reqOut (seq : U32) (s : State) : (retire seq s).reqOut = if s.reqOut && decide (seq = s.reqMax) then false else s.reqOut := rfl
@[simp] theorem retire_reqMin (seq : U32) (s : State) : (retire seq s).reqMin = s.reqMin := rfl
@[simp] theorem retire_reqMax (seq : U32) (s : State) : (retire seq s).reqMax = s.reqMax := rfl
@[simp] theorem retire_upToDate (seq : U32) (s : State) : (retire seq s).upToDate = s.upToDate := rfl
@[simp] theorem retire_irValid (seq : U32) (s : State) : (retire seq s).irValid = s.irValid := rfl
@[simp] theorem retire_irValue (seq : U32) (s : State) : (retire seq s).irValue = s.irValue := rfl
@[simp] theorem retire_irTs (seq : U32) (s : State) : (retire seq s).irTs = s.irTs := rfl
@[simp] theorem retire_irHopPresent (seq : U32) (s : State) : (retire seq s).irHopPresent = s.irHopPresent := rfl
@[simp] theorem retire_irHop (seq : U32) (s : State) : (retire seq s).irHop = s.irHop := rfl
@[simp] theorem retire_prevInfoValid (seq : U32) (s : State) : (retire seq s).prevInfoValid = s.prevInfoValid := rfl
@[simp] theorem retire_prevInfo (seq : U32) (s : State) : (retire seq s).prevInfo = s.prevInfo := rfl
@[simp] theorem retire_prevSeqValid (seq : U32) (s : State) : (retire seq s).prevSeqValid = s.prevSeqValid := rfl
@[simp] theorem retire_prevSeq (seq : U32) (s : State) : (retire seq s).prevSeq = s.prevSeq := rfl
@[simp] theorem retire_targetSeconds (seq : U32) (s : State) : (retire seq s).targetSeconds = s.targetSeconds := rfl
@[simp] theorem retire_stepPerTick (seq : U32) (s : State) : (retire seq s).stepPerTick = s.stepPerTick := rfl
@[simp] theorem retire_currentMs (seq : U32) (s : State) : (retire seq s).currentMs = s.currentMs := rfl
@[simp] theorem retire_tickerArmed (seq : U32) (s : State) : (retire seq s).tickerArmed = s.tickerArmed := rfl
@[simp] theorem retire_tickerDeadline (seq : U32) (s : State) : (retire seq s).tickerDeadline = s.tickerDeadline := rfl
@[simp] theorem retire_wdogArmed (seq : U32) (s : State) : (retire seq s).wdogArmed = s.wdogArmed := rfl
@[simp] theorem retire_wdogDeadline (seq : U32) (s : State) : (retire seq s).wdogDeadline = s.wdogDeadline := rfl
@[simp] theorem retire_predStale (seq : U32) (s : State) : (retire seq s).predStale = s.predStale := rfl
@[simp] theorem retire_tx (seq : U32) (s : State) : (retire seq s).tx = s.tx := rfl
@[simp] theorem retire_pub (seq : U32) (s : State) : (retire seq s).pub = s.pub := rfl
@[simp] theorem retire_rsp (seq : U32) (s : State) : (retire seq s).rsp = s.rsp := rfl
@[simp] theorem retire_agenda (seq : U32) (s : State) : (retire seq s).agenda = s.agenda := rfl
@[simp] theorem retire_params (seq : U32) (s : State) : (retire seq s).params = s.params := rfl
@[simp] theorem retire_freeCount (seq : U32) (s : State) : (retire seq s).freeCount = s.freeCount := rfl

/-! ### armTimers -/

@[simp] theorem armTimers_timeMs (start : Bool) (seq : U32) (now : Nat) (s : State) : (armTimers start seq now s).timeMs = s.timeMs := rfl
@[simp] theorem armTimers_sessValid (start : Bool) (seq : U32) (now : Nat) (s : State) : (armTimers start seq now s).sessValid = s.sessValid := rfl
@[simp] theorem armTimers_sessId (start : Bool) (seq : U32) (now : Nat) (s : State) : (armTimers start seq now s).sessId = s.sessId := rfl
@[simp] theorem armTimers_sessPeriodMs (start : Bool) (seq : U32) (now : Nat) (s : State) : (armTimers start seq now s).sessPeriodMs = s.sessPeriodMs := rfl
@[simp] theorem armTimers_logs (start : Bool) (seq : U32) (now : Nat) (s : State) : (armTimers start seq now s).logs = s.logs := rfl
@[simp] theorem armTimers_reqOut (start : Bool) (seq : U32) (now : Nat) (s : State) : (armTimers start seq now s).reqOut = s.reqOut := rfl
@[simp] theorem armTimers_reqMin (start : Bool) (seq : U32) (now : Nat) (s : State) : (armTimers start seq now s).reqMin = s.reqMin := rfl
@[simp] theorem armTimers_reqMax (start : Bool) (seq : U32) (now : Nat) (s : State) : (armTimers start seq now s).reqMax = s.reqMax := rfl
@[simp] theorem armTimers_upToDate (start : Bool) (seq : U32) (now : Nat) (s : State) : (armTimers start seq now s).upToDate = s.upToDate := rfl
@[simp] theorem armTimers_irValid (start : Bool) (seq : U32) (now : Nat) (s : State) : (armTimers start seq now s).irValid = s.irValid := rfl
@[simp] theorem armTimers_irValue (start : Bool) (seq : U32) (now : Nat) (s : State) : (armTimers start seq now s).irValue = s.irValue := rfl
@[simp] theorem armTimers_irTs (start : Bool) (seq : U32) (now : Nat) (s : State) : (armTimers start seq now s).irTs = s.irTs := rfl
@[simp] theorem armTimers_irHopPresent (start : Bool) (seq : U32) (now : Nat) (s : State) : (armTimers start seq now s).irHopPresent = s.irHopPresent := rfl
@[simp] theorem armTimers_irHop (start : Bool) (seq : U32) (now : Nat) (s : State) : (armTimers start seq now s).irHop = s.irHop := rfl
@[simp] theorem armTimers_prevInfoValid (start : Bool) (seq : U32) (now : Nat) (s : State) : (armTimers start seq now s).prevInfoValid = s.prevInfoValid := rfl
@[simp] theorem armTimers_prevInfo (start : Bool) (seq : U32) (now : Nat) (s : State) : (armTimers start seq now s).prevInfo = s.prevInfo := rfl
@[simp] theorem armTimers_prevSeqValid (start : Bool) (seq : U32) (now : Nat) (s : State) : (armTimers start seq now s).prevSeqValid = true := rfl
@[simp] theorem armTimers_prevSeq (start : Bool) (seq : U32) (now : Nat) (s : State) : (armTimers start seq now s).prevSeq = seq := rfl
@[simp] theorem armTimers_targetSeconds (start : Bool) (seq : U32) (now : Nat) (s : State) : (armTimers start seq now s).targetSeconds = s.targetSeconds := rfl
@[simp] theorem armTimers_stepPerTick (start : Bool) (seq : U32) (now : Nat) (s : State) : (armTimers start seq now s).stepPerTick = s.stepPerTick := rfl
@[simp] theorem armTimers_currentMs (start : Bool) (seq : U32) (now : Nat) (s : State) : (armTimers start seq now s).currentMs = s.currentMs := rfl
@[simp] theorem armTimers_tickerArmed (start : Bool) (seq : U32) (now : Nat) (s : State) : (armTimers start seq now s).tickerArmed = start := rfl
@[simp] theorem armTimers_tickerDeadline (start : Bool) (seq : U32) (now : Nat) (s : State) : (armTimers start seq now s).tickerDeadline = if start then now + s.params.consts.tickMs else s.tickerDeadline := rfl
@[simp] theorem armTimers_wdogArmed (start : Bool) (seq : U32) (now : Nat) (s : State) : (armTimers start seq now s).wdogArmed = true := rfl
@[simp] theorem armTimers_wdogDeadline (start : Bool) (seq : U32) (now : Nat) (s : State) : (armTimers start seq now s).wdogDeadline = now + s.params.consts.predStaleMs := rfl
@[simp] theorem armTimers_predStale (start : Bool) (seq : U32) (now : Nat) (s : State) : (armTimers start seq now s).predStale = false := rfl
@[simp] theorem armTimers_tx (start : Bool) (seq : U32) (now : Nat) (s : State) : (armTimers start seq now s).tx = s.tx := rfl
@[simp] theorem armTimers_pub (start : Bool) (seq : U32) (now : Nat) (s : State) : (armTimers start seq now s).pub = s.pub := rfl
@[simp] theorem armTimers_rsp (start : Bool) (seq : U32) (now : Nat) (s : State) : (armTimers start seq now s).rsp = s.rsp := rfl
@[simp] theorem armTimers_agenda (start : Bool) (seq : U32) (now : Nat) (s : State) : (armTimers start seq now s).agenda = s.agenda := rfl
@[simp] theorem armTimers_params (start : Bool) (seq : U32) (now : Nat) (s : State) : (armTimers start seq now s).params = s.params := rfl
@[simp] theorem armTimers_freeCount (start : Bool) (seq : U32) (now : Nat) (s : State) : (armTimers start seq now s).freeCount = s.freeCount := rfl

/-! ### storeAbsent -/

@[simp] theorem storeAbsent_timeMs (s : State) : (storeAbsent s).timeMs = s.timeMs := rfl
@[simp] theorem storeAbsent_sessValid (s : State) : (storeAbsent s).sessValid = s.sessValid := rfl
@[simp] theorem storeAbsent_sessId (s : State) : (storeAbsent s).sessId = s.sessId := rfl
@[simp] theorem storeAbsent_sessPeriodMs (s : State) : (storeAbsent s).sessPeriodMs = s.sessPeriodMs := rfl
@[simp] theorem storeAbsent_logs (s : State) : (storeAbsent s).logs = s.logs := rfl
@[simp] theorem storeAbsent_reqOut (s : State) : (storeAbsent s).reqOut = s.reqOut := rfl
@[simp] theorem storeAbsent_reqMin (s : State) : (storeAbsent s).reqMin = s.reqMin := rfl
@[simp] theorem storeAbsent_reqMax (s : State) : (storeAbsent s).reqMax = s.reqMax := rfl
@[simp] theorem storeAbsent_upToDate (s : State) : (storeAbsent s).upToDate = s.upToDate := rfl
@[simp] theorem storeAbsent_irValid (s : State) : (storeAbsent s).irValid = s.irValid := rfl
@[simp] theorem storeAbsent_irValue (s : State) : (storeAbsent s).irValue = s.irValue := rfl
@[simp] theorem storeAbsent_irTs (s : State) : (storeAbsent s).irTs = s.irTs := rfl
@[simp] theorem storeAbsent_irHopPresent (s : State) : (storeAbsent s).irHopPresent = s.irHopPresent := rfl
@[simp] theorem storeAbsent_irHop (s : State) : (storeAbsent s).irHop = s.irHop := rfl
@[simp] theorem storeAbsent_prevInfoValid (s : State) : (storeAbsent s).prevInfoValid = false := rfl
@[simp] theorem storeAbsent_prevInfo (s : State) : (storeAbsent s).prevInfo = Config.freeInfo s.freeCount := rfl
@[simp] theorem storeAbsent_prevSeqValid (s : State) : (storeAbsent s).prevSeqValid = s.prevSeqValid := rfl
@[simp] theorem storeAbsent_prevSeq (s : State) : (storeAbsent s).prevSeq = s.prevSeq := rfl
@[simp] theorem storeAbsent_targetSeconds (s : State) : (storeAbsent s).targetSeconds = s.targetSeconds := rfl
@[simp] theorem storeAbsent_stepPerTick (s : State) : (storeAbsent s).stepPerTick = s.stepPerTick := rfl
@[simp] theorem storeAbsent_currentMs (s : State) : (storeAbsent s).currentMs = s.currentMs := rfl
@[simp] theorem storeAbsent_tickerArmed (s : State) : (storeAbsent s).tickerArmed = s.tickerArmed := rfl
@[simp] theorem storeAbsent_tickerDeadline (s : State) : (storeAbsent s).tickerDeadline = s.tickerDeadline := rfl
@[simp] theorem storeAbsent_wdogArmed (s : State) : (storeAbsent s).wdogArmed = s.wdogArmed := rfl
@[simp] theorem storeAbsent_wdogDeadline (s : State) : (storeAbsent s).wdogDeadline = s.wdogDeadline := rfl
@[simp] theorem storeAbsent_predStale (s : State) : (storeAbsent s).predStale = s.predStale := rfl
@[simp] theorem storeAbsent_tx (s : State) : (storeAbsent s).tx = s.tx := rfl
@[simp] theorem storeAbsent_pub (s : State) : (storeAbsent s).pub = s.pub ++ [none] := rfl
@[simp] theorem storeAbsent_rsp (s : State) : (storeAbsent s).rsp = s.rsp := rfl
@[simp] theorem storeAbsent_agenda (s : State) : (storeAbsent s).agenda = s.agenda := rfl
@[simp] theorem storeAbsent_params (s : State) : (storeAbsent s).params = s.params := rfl
@[simp] theorem storeAbsent_freeCount (s : State) : (storeAbsent s).freeCount = s.freeCount + 1 := rfl

/-! ### watchdogFires -/

@[simp] theorem watchdogFires_timeMs (s : State) : (watchdogFires s).timeMs = max s.timeMs s.wdogDeadline := rfl
@[simp] theorem watchdogFires_sessValid (s : State) : (watchdogFires s).sessValid = s.sessValid := rfl
@[simp] theorem watchdogFires_sessId (s : State) : (watchdogFires s).sessId = s.sessId := rfl
@[simp] theorem watchdogFires_sessPeriodMs (s : State) : (watchdogFires s).sessPeriodMs = s.sessPeriodMs := rfl
@[simp] theorem watchdogFires_logs (s : State) : (watchdogFires s).logs = s.logs := rfl
@[simp] theorem watchdogFires_reqOut (s : State) : (watchdogFires s).reqOut = s.reqOut := rfl
@[simp] theorem watchdogFires_reqMin (s : State) : (watchdogFires s).reqMin = s.reqMin := rfl
@[simp] theorem watchdogFires_reqMax (s : State) : (watchdogFires s).reqMax = s.reqMax := rfl
@[simp] theorem watchdogFires_upToDate (s : State) : (watchdogFires s).upToDate = s.upToDate := rfl
@[simp] theorem watchdogFires_irValid (s : State) : (watchdogFires s).irValid = s.irValid := rfl
@[simp] theorem watchdogFires_irValue (s : State) : (watchdogFires s).irValue = s.irValue := rfl
@[simp] theorem watchdogFires_irTs (s : State) : (watchdogFires s).irTs = s.irTs := rfl
@[simp] theorem watchdogFires_irHopPresent (s : State) : (watchdogFires s).irHopPresent = s.irHopPresent := rfl
@[simp] theorem watchdogFires_irHop (s : State) : (watchdogFires s).irHop = s.irHop := rfl
@[simp] theorem watchdogFires_prevInfoValid (s : State) : (watchdogFires s).prevInfoValid = s.prevInfoValid := rfl
@[simp] theorem watchdogFires_prevInfo (s : State) : (watchdogFires s).prevInfo = s.prevInfo := rfl
@[simp] theorem watchdogFires_prevSeqValid (s : State) : (watchdogFires s).prevSeqValid = s.prevSeqValid := rfl
@[simp] theorem watchdogFires_prevSeq (s : State) : (watchdogFires s).prevSeq = s.prevSeq := rfl
@[simp] theorem watchdogFires_targetSeconds (s : State) : (watchdogFires s).targetSeconds = s.targetSeconds := rfl
@[simp] theorem watchdogFires_stepPerTick (s : State) : (watchdogFires s).stepPerTick = s.stepPerTick := rfl
@[simp] theorem watchdogFires_currentMs (s : State) : (watchdogFires s).currentMs = s.currentMs := rfl
@[simp] theorem watchdogFires_tickerArmed (s : State) : (watchdogFires s).tickerArmed = false := rfl
@[simp] theorem watchdogFires_tickerDeadline (s : State) : (watchdogFires s).tickerDeadline = s.tickerDeadline := rfl
@[simp] theorem watchdogFires_wdogArmed (s : State) : (watchdogFires s).wdogArmed = false := rfl
@[simp] theorem watchdogFires_wdogDeadline (s : State) : (watchdogFires s).wdogDeadline = s.wdogDeadline := rfl
@[simp] theorem watchdogFires_predStale (s : State) : (watchdogFires s).predStale = true := rfl
@[simp] theorem watchdogFires_tx (s : State) : (watchdogFires s).tx = s.tx := rfl
@[simp] theorem watchdogFires_pub (s : State) : (watchdogFires s).pub = s.pub := rfl
@[simp] theorem watchdogFires_rsp (s : State) : (watchdogFires s).rsp = s.rsp := rfl
@[simp] theorem watchdogFires_agenda (s : State) : (watchdogFires s).agenda = s.agenda := rfl
@[simp] theorem watchdogFires_params (s : State) : (watchdogFires s).params = s.params := rfl
@[simp] theorem watchdogFires_freeCount (s : State) : (watchdogFires s).freeCount = s.freeCount := rfl

/-! ### tick -/

@[simp] theorem tick_timeMs (s : State) : (tick s).timeMs = max s.timeMs s.tickerDeadline := rfl
@[simp] theorem tick_sessValid (s : State) : (tick s).sessValid = s.sessValid := rfl
@[simp] theorem tick_sessId (s : State) : (tick s).sessId = s.sessId := rfl
@[simp] theorem tick_sessPeriodMs (s : State) : (tick s).sessPeriodMs = s.sessPeriodMs := rfl
@[simp] theorem tick_logs (s : State) : (tick s).logs = s.logs := rfl
@[simp] theorem tick_reqOut (s : State) : (tick s).reqOut = s.reqOut := rfl
@[simp] theorem tick_reqMin (s : State) : (tick s).reqMin = s.reqMin := rfl
@[simp] theorem tick_reqMax (s : State) : (tick s).reqMax = s.reqMax := rfl
@[simp] theorem tick_upToDate (s : State) : (tick s).upToDate = s.upToDate := rfl
@[simp] theorem tick_irValid (s : State) : (tick s).irValid = s.irValid := rfl
@[simp] theorem tick_irValue (s : State) : (tick s).irValue = s.irValue := rfl
@[simp] theorem tick_irTs (s : State) : (tick s).irTs = s.irTs := rfl
@[simp] theorem tick_irHopPresent (s : State) : (tick s).irHopPresent = s.irHopPresent := rfl
@[simp] theorem tick_irHop (s : State) : (tick s).irHop = s.irHop := rfl
@[simp] theorem tick_prevInfoValid (s : State) : (tick s).prevInfoValid = s.prevInfoValid := rfl
@[simp] theorem tick_prevInfo (s : State) : (tick s).prevInfo = { s.prevInfo with secs := disp (wrapLin s.params (s.currentMs - s.stepPerTick)) } := rfl
@[simp] theorem tick_prevSeqValid (s : State) : (tick s).prevSeqValid = s.prevSeqValid := rfl
@[simp] theorem tick_prevSeq (s : State) : (tick s).prevSeq = s.prevSeq := rfl
@[simp] theorem tick_targetSeconds (s : State) : (tick s).targetSeconds = s.targetSeconds := rfl
@[simp] theorem tick_stepPerTick (s : State) : (tick s).stepPerTick = s.stepPerTick := rfl
@[simp] theorem tick_currentMs (s : State) : (tick s).currentMs = wrapLin s.params (s.currentMs - s.stepPerTick) := rfl
@[simp] theorem tick_tickerArmed (s : State) : (tick s).tickerArmed = s.tickerArmed := rfl
@[simp] theorem tick_tickerDeadline (s : State) : (tick s).tickerDeadline = s.tickerDeadline + s.params.consts.tickMs := rfl
@[simp] theorem tick_wdogArmed (s : State) : (tick s).wdogArmed = s.wdogArmed := rfl
@[simp] theorem tick_wdogDeadline (s : State) : (tick s).wdogDeadline = s.wdogDeadline := rfl
@[simp] theorem tick_predStale (s : State) : (tick s).predStale = s.predStale := rfl
@[simp] theorem tick_tx (s : State) : (tick s).tx = s.tx := rfl
@[simp] theorem tick_pub (s : State) : (tick s).pub = s.pub ++ [some { s.prevInfo with secs := disp (wrapLin s.params (s.currentMs - s.stepPerTick)) }] := rfl
@[simp] theorem tick_rsp (s : State) : (tick s).rsp = s.rsp := rfl
@[simp] theorem tick_agenda (s : State) : (tick s).agenda = s.agenda := rfl
@[simp] theorem tick_params (s : State) : (tick s).params = s.params := rfl
@[simp] theorem tick_freeCount (s : State) : (tick s).freeCount = s.freeCount := rfl

/-! ### appendPoint: only the log store is written -/

@[simp] theorem appendPoint_timeMs (seq : U32) (t : TempSet) (s : State) : (appendPoint seq t s).timeMs = s.timeMs := by
  unfold appendPoint; split <;> rfl
@[simp] theorem appendPoint_sessValid (seq : U32) (t : TempSet) (s : State) : (appendPoint seq t s).sessValid = s.sessValid := by
  unfold appendPoint; split <;> rfl
@[simp] theorem appendPoint_sessId (seq : U32) (t : TempSet) (s : State) : (appendPoint seq t s).sessId = s.sessId := by
  unfold appendPoint; split <;> rfl
@[simp] theorem appendPoint_sessPeriodMs (seq : U32) (t : TempSet) (s : State) : (appendPoint seq t s).sessPeriodMs = s.sessPeriodMs := by
  unfold appendPoint; split <;> rfl
@[simp] theorem appendPoint_reqOut (seq : U32) (t : TempSet) (s : State) : (appendPoint seq t s).reqOut = s.reqOut := by
  unfold appendPoint; split <;> rfl
@[simp] theorem appendPoint_reqMin (seq : U32) (t : TempSet) (s : State) : (appendPoint seq t s).reqMin = s.reqMin := by
  unfold appendPoint; split <;> rfl
@[simp] theorem appendPoint_reqMax (seq : U32) (t : TempSet) (s : State) : (appendPoint seq t s).reqMax = s.reqMax := by
  unfold appendPoint; split <;> rfl
@[simp] theorem appendPoint_upToDate (seq : U32) (t : TempSet) (s : State) : (appendPoint seq t s).upToDate = s.upToDate := by
  unfold appendPoint; split <;> rfl
@[simp] theorem appendPoint_irValid (seq : U32) (t : TempSet) (s : State) : (appendPoint seq t s).irValid = s.irValid := by
  unfold appendPoint; split <;> rfl
@[simp] theorem appendPoint_irValue (seq : U32) (t : TempSet) (s : State) : (appendPoint seq t s).irValue = s.irValue := by
  unfold appendPoint; split <;> rfl
@[simp] theorem appendPoint_irTs (seq : U32) (t : TempSet) (s : State) : (appendPoint seq t s).irTs = s.irTs := by
  unfold appendPoint; split <;> rfl
@[simp] theorem appendPoint_irHopPresent (seq : U32) (t : TempSet) (s : State) : (appendPoint seq t s).irHopPresent = s.irHopPresent := by
  unfold appendPoint; split <;> rfl
@[simp] theorem appendPoint_irHop (seq : U32) (t : TempSet) (s : State) : (appendPoint seq t s).irHop = s.irHop := by
  unfold appendPoint; split <;> rfl
@[simp] theorem appendPoint_prevInfoValid (seq : U32) (t : TempSet) (s : State) : (appendPoint seq t s).prevInfoValid = s.prevInfoValid := by
  unfold appendPoint; split <;> rfl
@[simp] theorem appendPoint_prevInfo (seq : U32) (t : TempSet) (s : State) : (appendPoint seq t s).prevInfo = s.prevInfo := by
  unfold appendPoint; split <;> rfl
@[simp] theorem appendPoint_prevSeqValid (seq : U32) (t : TempSet) (s : State) : (appendPoint seq t s).prevSeqValid = s.prevSeqValid := by
  unfold appendPoint; split <;> rfl
@[simp] theorem appendPoint_prevSeq (seq : U32) (t : TempSet) (s : State) : (appendPoint seq t s).prevSeq = s.prevSeq := by
  unfold appendPoint; split <;> rfl
@[simp] theorem appendPoint_targetSeconds (seq : U32) (t : TempSet) (s : State) : (appendPoint seq t s).targetSeconds = s.targetSeconds := by
  unfold appendPoint; split <;> rfl
@[simp] theorem appendPoint_stepPerTick (seq : U32) (t : TempSet) (s : State) : (appendPoint seq t s).stepPerTick = s.stepPerTick := by
  unfold appendPoint; split <;> rfl
@[simp] theorem appendPoint_currentMs (seq : U32) (t : TempSet) (s : State) : (appendPoint seq t s).currentMs = s.currentMs := by
  unfold appendPoint; split <;> rfl
@[simp] theorem appendPoint_tickerArmed (seq : U32) (t : TempSet) (s : State) : (appendPoint seq t s).tickerArmed = s.tickerArmed := by
  unfold appendPoint; split <;> rfl
@[simp] theorem appendPoint_tickerDeadline (seq : U32) (t : TempSet) (s : State) : (appendPoint seq t s).tickerDeadline = s.tickerDeadline := by
  unfold appendPoint; split <;> rfl
@[simp] theorem appendPoint_wdogArmed (seq : U32) (t : TempSet) (s : State) : (appendPoint seq t s).wdogArmed = s.wdogArmed := by
  unfold appendPoint; split <;> rfl
@[simp] theorem appendPoint_wdogDeadline (seq : U32) (t : TempSet) (s : State) : (appendPoint seq t s).wdogDeadline = s.wdogDeadline := by
  unfold appendPoint; split <;> rfl
@[simp] theorem appendPoint_predStale (seq : U32) (t : TempSet) (s : State) : (appendPoint seq t s).predStale = s.predStale := by
  unfold appendPoint; split <;> rfl
@[simp] theorem appendPoint_tx (seq : U32) (t : TempSet) (s : State) : (appendPoint seq t s).tx = s.tx := by
  unfold appendPoint; split <;> rfl
@[simp] theorem appendPoint_pub (seq : U32) (t : TempSet) (s : State) : (appendPoint seq t s).pub = s.pub := by
  unfold appendPoint; split <;> rfl
@[simp] theorem appendPoint_rsp (seq : U32) (t : TempSet) (s : State) : (appendPoint seq t s).rsp = s.rsp := by
  unfold appendPoint; split <;> rfl
@[simp] theorem appendPoint_agenda (seq : U32) (t : TempSet) (s : State) : (appendPoint seq t s).agenda = s.agenda := by
  unfold appendPoint; split <;> rfl
@[simp] theorem appendPoint_params (seq : U32) (t : TempSet) (s : State) : (appendPoint seq t s).params = s.params := by
  unfold appendPoint; split <;> rfl
@[simp] theorem appendPoint_freeCount (seq : U32) (t : TempSet) (s : State) : (appendPoint seq t s).freeCount = s.freeCount := by
  unfold appendPoint; split <;> rfl

/-! ### storeInfo -/

@[simp] theorem storeInfo_timeMs (st : PredictionStatus) (secs : Option U32) (s : State) :
    (storeInfo st secs s).timeMs = s.timeMs := by unfold storeInfo; cases secs <;> rfl
@[simp] theorem storeInfo_sessValid (st : PredictionStatus) (secs : Option U32) (s : State) :
    (storeInfo st secs s).sessValid = s.sessValid := by unfold storeInfo; cases secs <;> rfl
@[simp] theorem storeInfo_sessId (st : PredictionStatus) (secs : Option U32) (s : State) :
    (storeInfo st secs s).sessId = s.sessId := by unfold storeInfo; cases secs <;> rfl
@[simp] theorem storeInfo_sessPeriodMs (st : PredictionStatus) (secs : Option U32) (s : State) :
    (storeInfo st secs s).sessPeriodMs = s.sessPeriodMs := by unfold storeInfo; cases secs <;> rfl
@[simp] theorem storeInfo_logs (st : PredictionStatus) (secs : Option U32) (s : State) :
    (storeInfo st secs s).logs = s.logs := by unfold storeInfo; cases secs <;> rfl
@[simp] theorem storeInfo_reqOut (st : PredictionStatus) (secs : Option U32) (s : State) :
    (storeInfo st secs s).reqOut = s.reqOut := by unfold storeInfo; cases secs <;> rfl
@[simp] theorem storeInfo_reqMin (st : PredictionStatus) (secs : Option U32) (s : State) :
    (storeInfo st secs s).reqMin = s.reqMin := by unfold storeInfo; cases secs <;> rfl
@[simp] theorem storeInfo_reqMax (st : PredictionStatus) (secs : Option U32) (s : State) :
    (storeInfo st secs s).reqMax = s.reqMax := by unfold storeInfo; cases secs <;> rfl
@[simp] theorem storeInfo_upToDate (st : PredictionStatus) (secs : Option U32) (s : State) :
    (storeInfo st secs s).upToDate = s.upToDate := by unfold storeInfo; cases secs <;> rfl
@[simp] theorem storeInfo_irValid (st : PredictionStatus) (secs : Option U32) (s : State) :
    (storeInfo st secs s).irValid = s.irValid := by unfold storeInfo; cases secs <;> rfl
@[simp] theorem storeInfo_irValue (st : PredictionStatus) (secs : Option U32) (s : State) :
    (storeInfo st secs s).irValue = s.irValue := by unfold storeInfo; cases secs <;> rfl
@[simp] theorem storeInfo_irTs (st : PredictionStatus) (secs : Option U32) (s : State) :
    (storeInfo st secs s).irTs = s.irTs := by unfold storeInfo; cases secs <;> rfl
@[simp] theorem storeInfo_irHopPresent (st : PredictionStatus) (secs : Option U32) (s : State) :
    (storeInfo st secs s).irHopPresent = s.irHopPresent := by unfold storeInfo; cases secs <;> rfl
@[simp] theorem storeInfo_irHop (st : PredictionStatus) (secs : Option U32) (s : State) :
    (storeInfo st secs s).irHop = s.irHop := by unfold storeInfo; cases secs <;> rfl
@[simp] theorem storeInfo_prevSeqValid (st : PredictionStatus) (secs : Option U32) (s : State) :
    (storeInfo st secs s).prevSeqValid = s.prevSeqValid := by unfold storeInfo; cases secs <;> rfl
@[simp] theorem storeInfo_prevSeq (st : PredictionStatus) (secs : Option U32) (s : State) :
    (storeInfo st secs s).prevSeq = s.prevSeq := by unfold storeInfo; cases secs <;> rfl
@[simp] theorem storeInfo_targetSeconds (st : PredictionStatus) (secs : Option U32) (s : State) :
    (storeInfo st secs s).targetSeconds = s.targetSeconds := by unfold storeInfo; cases secs <;> rfl
@[simp] theorem storeInfo_stepPerTick (st : PredictionStatus) (secs : Option U32) (s : State) :
    (storeInfo st secs s).stepPerTick = s.stepPerTick := by unfold storeInfo; cases secs <;> rfl
@[simp] theorem storeInfo_currentMs (st : PredictionStatus) (secs : Option U32) (s : State) :
    (storeInfo st secs s).currentMs = s.currentMs := by unfold storeInfo; cases secs <;> rfl
@[simp] theorem storeInfo_tickerArmed (st : PredictionStatus) (secs : Option U32) (s : State) :
    (storeInfo st secs s).tickerArmed = s.tickerArmed := by unfold storeInfo; cases secs <;> rfl
@[simp] theorem storeInfo_tickerDeadline (st : PredictionStatus) (secs : Option U32) (s : State) :
    (storeInfo st secs s).tickerDeadline = s.tickerDeadline := by unfold storeInfo; cases secs <;> rfl
@[simp] theorem storeInfo_wdogArmed (st : PredictionStatus) (secs : Option U32) (s : State) :
    (storeInfo st secs s).wdogArmed = s.wdogArmed := by unfold storeInfo; cases secs <;> rfl
@[simp] theorem storeInfo_wdogDeadline (st : PredictionStatus) (secs : Option U32) (s : State) :
    (storeInfo st secs s).wdogDeadline = s.wdogDeadline := by unfold storeInfo; cases secs <;> rfl
@[simp] theorem storeInfo_predStale (st : PredictionStatus) (secs : Option U32) (s : State) :
    (storeInfo st secs s).predStale = s.predStale := by unfold storeInfo; cases secs <;> rfl
@[simp] theorem storeInfo_tx (st : PredictionStatus) (secs : Option U32) (s : State) :
    (storeInfo st secs s).tx = s.tx := by unfold storeInfo; cases secs <;> rfl
@[simp] theorem storeInfo_rsp (st : PredictionStatus) (secs : Option U32) (s : State) :
    (storeInfo st secs s).rsp = s.rsp := by unfold storeInfo; cases secs <;> rfl
@[simp] theorem storeInfo_agenda (st : PredictionStatus) (secs : Option U32) (s : State) :
    (storeInfo st secs s).agenda = s.agenda := by unfold storeInfo; cases secs <;> rfl
@[simp] theorem storeInfo_params (st : PredictionStatus) (secs : Option U32) (s : State) :
    (storeInfo st secs s).params = s.params := by unfold storeInfo; cases secs <;> rfl
@[simp] theorem storeInfo_prevInfoValid (st : PredictionStatus) (secs : Option U32) (s : State) :
    (storeInfo st secs s).prevInfoValid = true := by unfold storeInfo; cases secs <;> rfl

end Sys2Proof.Machine
end

