-- ==== Sys2Proof/Laws/Ops.lean ====
section
/-! SUPPORT. What each shared operation can do, said once: answers, the time rule, the pieces of a status and of an update,
the fetch of a command, the choice of a due timer, and one step. Later proofs cite these and unfold none of them. -/

namespace Sys2Proof.Machine

/-! ### Answers -/

@[simp] theorem reply_eq_next (r : Response) (s t : State) : reply r s = .next t ↔ respond r s = t := by
  simp [reply]

/-- An operation with an optional result always completes, with OK or with ABSENT. -/
theorem replyOption_cases {α : Type} (f : α → Results) (o : Option α) (s t : State) (h : replyOption f o s = .next t) :
    (∃ a, o = some a ∧ t = respond (.ok (f a)) s) ∨ (o = none ∧ t = respond .absent s) := by
  have ht := ((reply_eq_next _ _ _).1 h).symm
  cases o with
  | none => exact .inr ⟨rfl, ht⟩
  | some a => exact .inl ⟨a, rfl, ht⟩

/-- A count is within an optional bound (R29). -/
theorem within_iff (bound : Option Nat) (n : Nat) : within bound n = true ↔ ∀ b, bound = some b → n ≤ b := by
  cases bound <;> simp [within]

/-- A buffer that RX_MAX accepts is the operation's input (R5). -/
theorem received_of_le (p : Params) (buf : Buffer) (h : ∀ b, p.rxMax = some b → buf.length ≤ b) :
    received p buf = some buf :=
  if_pos ((within_iff _ _).2 h)

/-- A longer buffer is dropped (R280). -/
theorem received_of_lt (p : Params) (buf : Buffer) (b : Nat) (hb : p.rxMax = some b) (h : b < buf.length) :
    received p buf = none :=
  if_neg fun hw => Nat.not_le.2 h ((within_iff _ _).1 hw b hb)

/-! ### The time rule (R287 (a)) -/

/-- With the default width of the time base a `now` operand is the time it says. -/
theorem clock_of_table (p : Params) (now : U64) (h : p.consts = tableConsts) : clock p now = now.toNat := by
  rw [clock, h]
  exact Nat.mod_eq_of_lt now.isLt

/-- With time not running backwards the operation runs at its `now`. -/
theorem atTime_of_le (now : U64) (s : State) (k : State → Answer) (h : s.timeMs ≤ clock s.params now) :
    atTime now s k = k { s with timeMs := clock s.params now } := by
  simp [atTime, Nat.not_lt.2 h]

/-- With time running backwards the answer is ILLEGAL. -/
theorem atTime_of_lt (now : U64) (s : State) (k : State → Answer) (h : clock s.params now < s.timeMs) :
    atTime now s k = .next (answerIllegal s) := by
  simp [atTime, h]

/-- Both cases of an operation that carries `now`. -/
theorem atTime_cases (now : U64) (s t : State) (k : State → Answer) (h : atTime now s k = .next t) :
    (clock s.params now < s.timeMs ∧ t = answerIllegal s) ∨
      (s.timeMs ≤ clock s.params now ∧ k { s with timeMs := clock s.params now } = .next t) := by
  rcases Nat.lt_or_ge (clock s.params now) s.timeMs with hlt | hge
  · rw [atTime_of_lt now s k hlt] at h
    exact .inl ⟨hlt, by simpa using h.symm⟩
  · rw [atTime_of_le now s k hge] at h
    exact .inr ⟨hge, h⟩

/-! ### Registers of LIN_W bits (R37) -/

/-- What is wrapped once stays as it is. -/
@[simp] theorem wrapLin_wrapLin (p : Params) (v : Int) : wrapLin p (wrapLin p v) = wrapLin p v := by
  simp [wrapLin]

/-- With the default width, a value in the range of 64 bits is not changed. -/
theorem wrapLin_of_table (p : Params) (v : Int) (h : p.consts = tableConsts) (h1 : -2 ^ 63 ≤ v) (h2 : v < 2 ^ 63) :
    wrapLin p v = v := by
  rw [wrapLin, h]
  exact Int.bmod_eq_of_le (by simpa [tableConsts] using h1) (by simpa [tableConsts] using h2)

/-! ### The log store as a state operation -/

/-- What `append` does to the log store of the state (R182). -/
theorem appendPoint_logs (seq : U32) (t : TempSet) (s : State) :
    (appendPoint seq t s).logs =
      if s.sessValid then Memory.append s.params s.sessId ⟨seq, t⟩ s.logs else s.logs := by
  unfold appendPoint; split <;> rfl

/-- Appending keeps the canonical form. -/
theorem appendPoint_wf (seq : U32) (t : TempSet) (s : State) (h : Memory.wf s.logs) :
    Memory.wf (appendPoint seq t s).logs := by
  rw [appendPoint_logs]
  split
  · exact Memory.append_wf _ _ _ _ h
  · exact h

/-- A stored entry survives an append (R28 (c)). -/
theorem appendPoint_read_stored (seq : U32) (t : TempSet) (s : State) (id q : U32) (x : TempSet)
    (h : s.logs.read id q = some x) : (appendPoint seq t s).logs.read id q = some x := by
  rw [appendPoint_logs]
  split
  · exact Memory.read_append_stored _ _ _ _ _ _ _ h
  · exact h

/-- Every case of the evaluation of a status (R187). -/
theorem evaluateGap_cases (min max : U32) (s t : State) (h : evaluateGap min max s = .next t) :
    (firstMissing (curLog s) min max = none ∧
        t = respond (.ok (.status true none)) { s with upToDate := true, reqOut := false }) ∨
      (∃ m, firstMissing (curLog s) min max = some m ∧ s.reqOut = true ∧
        t = respond (.ok (.status false none)) { s with upToDate := false }) ∨
      (∃ m, firstMissing (curLog s) min max = some m ∧ s.reqOut = false ∧
        t = respond (.ok (.status false (some (m, capRequest s.params m max))))
          (transmit (requestFrame s.params m (capRequest s.params m max))
            { s with upToDate := false, reqOut := true, reqMin := m, reqMax := capRequest s.params m max })) := by
  unfold evaluateGap at h
  cases hm : firstMissing (curLog s) min max with
  | none =>
    simp only [hm] at h
    exact .inl ⟨rfl, ((reply_eq_next _ _ _).1 h).symm⟩
  | some m =>
    simp only [hm] at h
    split at h
    · rename_i hr; exact .inr (.inl ⟨m, rfl, hr, ((reply_eq_next _ _ _).1 h).symm⟩)
    · rename_i hr; exact .inr (.inr ⟨m, rfl, by simpa using hr, ((reply_eq_next _ _ _).1 h).symm⟩)

/-! ### The pieces of an update (R235, R238, R239) -/

/-- The low-resolution regime writes `current_ms` only, together with a new display, or keeps both (R238). -/
theorem lowRes_cases (ps seq : U32) (s : State) :
    (lowRes ps seq s = (BitVec.ofNat 32 (round15 s.params ps.toNat),
        { s with currentMs := wrapLin s.params (1000 * round15 s.params ps.toNat) })) ∨
      (havePrev s = true ∧ lowRes ps seq s = (s.prevInfo.secs, s)) := by
  unfold lowRes
  split
  · exact .inl rfl
  · rename_i h
    simp only [Bool.or_eq_true, not_or, Bool.not_eq_true, Bool.not_eq_false'] at h
    exact .inr ⟨h.1, rfl⟩

/-- The high-resolution regime displays `current_ms` and writes only the linearization registers (R239). -/
theorem highRes_spec (ps : U32) (s : State) :
    (highRes ps s).1 = disp (highRes ps s).2.currentMs ∧
      (highRes ps s).2 =
        { s with
          targetSeconds := (highRes ps s).2.targetSeconds
          stepPerTick := (highRes ps s).2.stepPerTick
          currentMs := (highRes ps s).2.currentMs } := by
  refine ⟨rfl, ?_⟩
  unfold highRes
  simp only
  split <;> rfl

/-- The countdown changes no register but the linearization ones (R235). -/
theorem secondsRemaining_state (st : PredState) (ps seq : U32) (s : State) :
    (secondsRemaining st ps seq s).2.2 =
      { s with
        targetSeconds := (secondsRemaining st ps seq s).2.2.targetSeconds
        stepPerTick := (secondsRemaining st ps seq s).2.2.stepPerTick
        currentMs := (secondsRemaining st ps seq s).2.2.currentMs } := by
  unfold secondsRemaining
  split
  · rfl
  · split
    · rcases lowRes_cases ps seq s with h | ⟨-, h⟩ <;> rw [h]
    · exact (highRes_spec ps s).2

/-- The countdown does not write the parameters. -/
@[simp] theorem secondsRemaining_params (st : PredState) (ps seq : U32) (s : State) :
    (secondsRemaining st ps seq s).2.2.params = s.params := by rw [secondsRemaining_state]

/-- The ticker starts exactly with a displayed high-resolution countdown (R235). -/
theorem secondsRemaining_start (st : PredState) (ps seq : U32) (s : State)
    (h : (secondsRemaining st ps seq s).2.1 = true) :
    st = .predicting ∧ ((secondsRemaining st ps seq s).1).isSome = true := by
  unfold secondsRemaining at *
  split at h
  · cases h
  · rename_i hcap
    split at h
    · cases h
    · rename_i hps
      have hst : st = .predicting := by
        by_contra hc
        exact hcap (.inl hc)
      rw [if_neg hcap, if_neg hps]
      exact ⟨hst, rfl⟩

/-- The information a status makes (R232): the record, published and stored. -/
theorem storeInfo_prevInfo (st : PredictionStatus) (secs : Option U32) (s : State) :
    (storeInfo st secs s).prevInfo =
      { state := predStateOfCode st.state, mode := st.mode, ptype := st.ptype, setPoint := st.setPoint
        heatStart := st.heatStart, estCore := st.estCore, secsValid := secs.isSome
        secs := secs.getD (freeReg 32 .secs s)
        percent := pct st.estCore.toInt st.heatStart.toInt st.setPoint.toInt } := by
  unfold storeInfo; cases secs <;> rfl

/-- What is published is what is stored (R242). -/
theorem storeInfo_pub (st : PredictionStatus) (secs : Option U32) (s : State) :
    (storeInfo st secs s).pub = s.pub ++ [some (storeInfo st secs s).prevInfo] := by
  unfold storeInfo; cases secs <;> rfl

/-! ### Timers (R287) -/

/-- No timer goes before a command with `now` exactly when no armed deadline lies strictly below it. -/
theorem dueTimer_eq_none (now : Nat) (s : State) :
    dueTimer (some now) s = none ↔
      (s.tickerArmed = true → now ≤ s.tickerDeadline) ∧ (s.wdogArmed = true → now ≤ s.wdogDeadline) := by
  unfold dueTimer
  cases ht : s.tickerArmed <;> cases hw : s.wdogArmed <;> simp
  rcases Nat.lt_or_ge s.tickerDeadline now with h1 | h1 <;> rcases Nat.lt_or_ge s.wdogDeadline now with h2 | h2
  · simp only [h1, h2, and_self, if_true]
    split
    · simp; omega
    · split
      · simp; omega
      · split <;> simp <;> omega
  · simp [h1, Nat.not_lt.2 h2]
  · simp [h2, Nat.not_lt.2 h1]
  · simp [Nat.not_lt.2 h1, Nat.not_lt.2 h2, h1, h2]

/-- A timer that goes before a command is one of the two events. -/
theorem dueTimer_internal (now : Option Nat) (s : State) (e : Instr) (h : dueTimer now s = some e) :
    e = .ptick ∨ e = .pwdog := by
  unfold dueTimer at h
  cases now with
  | none => cases h
  | some now =>
    simp only at h
    split at h
    · split at h
      · exact .inl (by simpa using h.symm)
      · split at h
        · exact .inr (by simpa using h.symm)
        · split at h
          · exact .inl (by simpa using h.symm)
          · exact .inr (by simpa using h.symm)
    · split at h
      · exact .inl (by simpa using h.symm)
      · split at h
        · exact .inr (by simpa using h.symm)
        · cases h

/-- Every case of one step that answers a next state: nothing to do, a timer's turn, a command answered ILLEGAL, a due
timer before a command, or the command's operation. -/
theorem step_cases (s t : State) (h : step s = .next t) :
    (s.agenda = [] ∧ t = s) ∨
      (∃ rest, s.agenda = .ticker :: rest ∧ exec .ptick (withAgenda rest s) = .next t) ∨
      (∃ rest, s.agenda = .watchdog :: rest ∧ exec .pwdog (withAgenda rest s) = .next t) ∨
      (∃ bytes rest, s.agenda = .command bytes :: rest ∧ fetchCommand bytes = .illegal ∧
        t = answerIllegal (withAgenda rest s)) ∨
      (∃ bytes rest i timer, s.agenda = .command bytes :: rest ∧ fetchCommand bytes = .run i ∧
        dueTimer (operandNow s.params i) s = some timer ∧ exec timer (drawn s) = .next t) ∨
      (∃ bytes rest i, s.agenda = .command bytes :: rest ∧ fetchCommand bytes = .run i ∧
        dueTimer (operandNow s.params i) s = none ∧ exec i (withAgenda rest s) = .next t) := by
  unfold step at h
  split at h
  · rename_i ha
    exact .inl ⟨ha, by simpa using h.symm⟩
  · rename_i rest ha
    exact .inr (.inl ⟨rest, ha, h⟩)
  · rename_i rest ha
    exact .inr (.inr (.inl ⟨rest, ha, h⟩))
  · rename_i bytes rest ha
    split at h
    · cases h
    · rename_i hf
      exact .inr (.inr (.inr (.inl ⟨bytes, rest, ha, hf, by simpa using h.symm⟩)))
    · rename_i i hf
      split at h
      · rename_i timer hd
        exact .inr (.inr (.inr (.inr (.inl ⟨bytes, rest, i, timer, ha, hf, hd, h⟩))))
      · rename_i hd
        exact .inr (.inr (.inr (.inr (.inr ⟨bytes, rest, i, ha, hf, hd, h⟩))))

end Sys2Proof.Machine
end

