-- ==== Sys2Proof/Laws/Meanings.lean ====
section
/-! SUPPORT. The conditions of Machine/Flags.lean as propositions, and what the state-changing pieces of the meanings
leave: answers, appends, the parser's frames, an accepted candidate, an update, the timers. -/

namespace Sys2Proof.Machine

/-! ### Answers -/

/-- Giving a response does nothing else (R42). -/
theorem onlyAnswers_respond (r : Response) (s : State) : OnlyAnswers r s (respond r s) := by
  simp [OnlyAnswers, Answers, KeepsAllButTime, KeepsLog, KeepsArb, KeepsSmooth, KeepsPrev, KeepsCountdown, KeepsTimers,
    KeepsOutside, EmitsNothing, respond]

/-- An ILLEGAL answer changes no register (R283). -/
theorem onlyAnswers_answerIllegal (s : State) : OnlyAnswers .illegal s (answerIllegal s) := onlyAnswers_respond _ _

/-! ### Conditions -/

/-- R211, R212: the verdict on a candidate whose `now` is not before the last accepted one. -/
theorem shouldAccept_iff (hopPresent : Bool) (hop : Byte) (now : Nat) (s : State) (hp : 0 < s.params.consts.irLockoutMs) :
    shouldAccept hopPresent hop now s = true ↔
      hopPresent = false ∨ ¬ (s.irValid = true ∧ now < s.irTs + s.params.consts.irLockoutMs) ∨
        (s.irHopPresent = true ∧ hop.toNat ≤ s.irHop.toNat) := by
  cases hopPresent
  · simp [shouldAccept]
  · simp [shouldAccept, inLockout]
    grind

/-- R214: the instant read is fresh. -/
theorem irVisible_iff (now : Nat) (s : State) (hp : 0 < s.params.consts.irStaleMs) :
    irVisible now s = true ↔ s.irValid = true ∧ now < s.irTs + s.params.consts.irStaleMs := by
  simp [irVisible]
  omega

/-- R231: the duplicate test. -/
theorem isDuplicate_iff (seq : U32) (s : State) : isDuplicate seq s = true ↔ s.prevSeqValid = true ∧ s.prevSeq = seq := by
  simp [isDuplicate, @eq_comm _ seq]

/-- R238: a countdown is displayed. -/
theorem havePrev_iff (s : State) : havePrev s = true ↔ s.prevInfoValid = true ∧ s.prevInfo.secsValid = true := by
  simp [havePrev]

/-- R239: the countdown walks from the displayed value. -/
theorem walks_iff (s : State) :
    walks s = true ↔ s.prevInfoValid = true ∧ s.prevInfo.state = .predicting ∧ s.prevInfo.secsValid = true := by
  simp [walks, and_assoc]

/-- R243: PTICK is enabled. -/
theorem tickEnabled_iff (s : State) :
    tickEnabled s = true ↔ s.tickerArmed = true ∧ s.tickerDeadline ≤ s.wdogDeadline := by
  simp [tickEnabled]

/-- R243: PWDOG is enabled. -/
theorem wdogEnabled_iff (s : State) :
    wdogEnabled s = true ↔
      s.wdogArmed = true ∧ (s.tickerArmed = false ∨ s.wdogDeadline ≤ s.tickerDeadline) := by
  simp [wdogEnabled]

/-- R246: PRD has a value. -/
theorem infoVisible_iff (s : State) : infoVisible s = true ↔ s.prevInfoValid = true ∧ s.predStale = false := by
  simp [infoVisible]

/-! ### LOG -/

/-- Appending writes the log store and no other register (R182). -/
theorem appendPoint_eq (seq : U32) (t : TempSet) (s : State) :
    appendPoint seq t s = { s with logs := (appendPoint seq t s).logs } := by
  unfold appendPoint
  split <;> rfl

/-- `last(L)` is the greatest number stored (R185). -/
theorem greatestSeq_spec (l : TempLog) :
    (∀ e ∈ l, e.seq.toNat ≤ greatestSeq l) ∧ (l ≠ [] → ∃ e ∈ l, e.seq.toNat = greatestSeq l) := by
  induction l with
  | nil => simp
  | cons x l ih =>
    refine ⟨?_, fun _ => ?_⟩
    · intro e he
      rcases List.mem_cons.1 he with rfl | he
      · exact Nat.le_max_left _ _
      · exact Nat.le_trans (ih.1 e he) (Nat.le_max_right _ _)
    · rcases Nat.le_total x.seq.toNat (greatestSeq l) with h | h
      · by_cases hl : l = []
        · subst hl
          exact ⟨x, by simp, by simp [greatestSeq]⟩
        · obtain ⟨e, he, hv⟩ := ih.2 hl
          exact ⟨e, List.mem_cons_of_mem _ he, by simp only [greatestSeq]; omega⟩
      · exact ⟨x, by simp, by simp only [greatestSeq]; omega⟩

/-! ### FRAME -/

/-- An accepted frame takes at least its header and lies inside what is left (R156). -/
theorem parseFrame_length (p : Params) (rest : Buffer) (r : Option Record) (n : Nat)
    (h : parseFrame p rest = some (r, n)) : p.consts.rspHdrLen ≤ n ∧ n ≤ rest.length := by
  unfold parseFrame at h
  simp only at h
  split at h; cases h
  split at h; cases h
  split at h; cases h
  split at h; cases h
  split at h; cases h
  simp only [Option.some.injEq, Prod.mk.injEq] at h
  omega

/-! ### ARB -/

/-- An accepted candidate writes the ARB registers, and draws a free value for the hop count of a direct one (R213). -/
theorem acceptCandidate_eq (value : S32) (hopPresent : Bool) (hop : Byte) (now : Nat) (s : State) :
    acceptCandidate value hopPresent hop now s =
      { s with
        irValid := true
        irValue := value
        irTs := now
        irHopPresent := hopPresent
        irHop := if hopPresent then hop else freeReg 8 .irHop s
        freeCount := if hopPresent then s.freeCount else s.freeCount + 1 } := by
  cases hopPresent <;> rfl

/-! ### SMOOTH -/

/-- What an update leaves in the timers and the sequence number, whatever it computed (R232, R240). -/
theorem updatePrediction_timers (stPresent : Bool) (st : PredictionStatus) (seq : U32) (now : Nat) (s : State) :
    (updatePrediction stPresent st seq now s).prevSeqValid = true ∧
      (updatePrediction stPresent st seq now s).prevSeq = seq ∧
      (updatePrediction stPresent st seq now s).predStale = false ∧
      (updatePrediction stPresent st seq now s).wdogArmed = true ∧
      (updatePrediction stPresent st seq now s).wdogDeadline = now + s.params.consts.predStaleMs ∧
      ((updatePrediction stPresent st seq now s).tickerArmed = true →
        (updatePrediction stPresent st seq now s).tickerDeadline = now + s.params.consts.tickMs) := by
  unfold updatePrediction
  cases stPresent
  · simp
  · simp only [if_true, armTimers_prevSeqValid, armTimers_prevSeq, armTimers_predStale, armTimers_wdogArmed,
      armTimers_wdogDeadline, armTimers_tickerArmed, armTimers_tickerDeadline, storeInfo_params, secondsRemaining_params]
    exact ⟨trivial, trivial, trivial, trivial, trivial, fun h => if_pos h⟩

end Sys2Proof.Machine
end

