-- ==== Sys2Proof/Laws/PerInstr.lean ====
section
/-! SUPPORT. A law of every operation, by constructor: its command is the opcode byte of its own row of
spec/opcode_table.json, then its operand fields (R81). -/

namespace Sys2Proof.Laws.OpcodeTable

/-- The opcode of each row of spec/opcode_table.json (R80), by the mnemonic LAWS.json gives the constructor. -/
def rowOpcode : Instr → Nat
  | .nop => 0
  | .rst => 1
  | .disc => 2
  | .tdec _ => 16
  | .tenc _ => 17
  | .mdec _ => 18
  | .bdec _ => 19
  | .hdec _ => 20
  | .fsdec _ => 21
  | .fsenc _ => 22
  | .adec _ => 23
  | .fbuild _ _ => 32
  | .fparse _ => 33
  | .crc16 _ => 34
  | .lsess _ _ => 48
  | .lstat _ _ _ _ => 49
  | .lframe _ _ => 50
  | .lmiss _ _ => 51
  | .lutd => 52
  | .irqry _ _ _ => 64
  | .iracc _ _ _ _ => 65
  | .irrd _ => 66
  | .pupd _ _ _ _ => 80
  | .prd => 81
  | .ppct _ _ _ => 82
  | .ptick => 224
  | .pwdog => 225

/-- The command of `i` is its row's opcode byte, then its operand fields. -/
def Statement (i : Instr) : Prop := encode i = BitVec.ofNat 8 (rowOpcode i) :: encodeOperands i

theorem nop : Statement .nop := rfl

theorem rst : Statement .rst := rfl

theorem disc : Statement .disc := rfl

theorem tdec (buf : Buffer) : Statement (.tdec buf) := rfl

theorem tenc (t : RawTemps) : Statement (.tenc t) := rfl

theorem mdec (b : Byte) : Statement (.mdec b) := rfl

theorem bdec (b : Byte) : Statement (.bdec b) := rfl

theorem hdec (b : Byte) : Statement (.hdec b) := rfl

theorem fsdec (buf : Buffer) : Statement (.fsdec buf) := rfl

theorem fsenc (p : FoodSafe) : Statement (.fsenc p) := rfl

theorem adec (buf : Buffer) : Statement (.adec buf) := rfl

theorem fbuild (mtype : Byte) (payload : Buffer) : Statement (.fbuild mtype payload) := rfl

theorem fparse (buf : Buffer) : Statement (.fparse buf) := rfl

theorem crc16 (buf : Buffer) : Statement (.crc16 buf) := rfl

theorem lsess (id : U32) (periodMs : U16) : Statement (.lsess id periodMs) := rfl

theorem lstat (min : U32) (max : U32) (t : RawTemps) (mode : OpMode) : Statement (.lstat min max t mode) := rfl

theorem lframe (seq : U32) (t : RawTemps) : Statement (.lframe seq t) := rfl

theorem lmiss (min : U32) (max : U32) : Statement (.lmiss min max) := rfl

theorem lutd : Statement .lutd := rfl

theorem irqry (hopPresent : Bool) (hop : Byte) (now : U64) : Statement (.irqry hopPresent hop now) := rfl

theorem iracc (value : S32) (hopPresent : Bool) (hop : Byte) (now : U64) : Statement (.iracc value hopPresent hop now) := rfl

theorem irrd (now : U64) : Statement (.irrd now) := rfl

theorem pupd (stPresent : Bool) (st : PredictionStatus) (seq : U32) (now : U64) : Statement (.pupd stPresent st seq now) := rfl

theorem prd : Statement .prd := rfl

theorem ppct (estCore : S32) (heatStart : S32) (setPoint : S32) : Statement (.ppct estCore heatStart setPoint) := rfl

theorem ptick : Statement .ptick := rfl

theorem pwdog : Statement .pwdog := rfl

end Sys2Proof.Laws.OpcodeTable
end

