-- ==== Sys2Proof/Tests/Slice0.lean ====
section
/-! SUPPORT. Tests, their expected results from spec/95_test_vectors.md (section or program named at each) or worked out by
hand from the encoding tables of spec/30_encoding.md; then one witness for the hypotheses of each obligation that has any. -/

namespace Sys2Proof.Machine.Tests

/-! ### Helpers -/

/-- The state after one operation. -/
def after (i : Instr) (s : State) : State :=
  match exec i s with
  | .next t => t
  | .fault _ => s
  | .refused _ => s

/-- The responses of one operation on a fresh record. -/
def answer (i : Instr) (s : State) : List Response := (after i { s with rsp := [] }).rsp

/-- Eight equal raw code operands. -/
def eight (v : U16) : RawTemps := ⟨v, v, v, v, v, v, v, v⟩

/-- The raw codes 1 to 8, and the 13 bytes that hold them (section 2.1). -/
def upTo8 : RawTemps := ⟨1, 2, 3, 4, 5, 6, 7, 8⟩

def upTo8Bytes : Buffer := [0x01, 0x40, 0x00, 0x0c, 0x00, 0x02, 0x50, 0x00, 0x0c, 0xc0, 0x01, 0x40, 0x00]

/-- A log that holds the given sequence numbers. -/
def logOf (ns : List U32) : TempLog := ns.map fun n => ⟨n, maskTemps (eight 400)⟩

/-- A state with session 7 and a log of the given numbers. -/
def withLog (ns : List U32) : State :=
  { State.reset with sessValid := true, sessId := 7#32, logs := [(7#32, logOf ns)] }

/-- The status operand `st(ps, core)` of program P3. -/
def st (ps core : U32) : PredictionStatus := ⟨1#2, .timeToRemoval, 0#8, 7100#32, 500#32, ps, core⟩

/-- A state in the high-resolution regime: the section 2.5 row `current_ms=120000`. -/
def ticking : State := after (.pupd true (st 120#32 7000#32) 1#32 5000#64) State.reset

/-- The frame `log3` of section 2.2. -/
def log3 : Buffer :=
  [0xca, 0xfe, 0x9c, 0xd5, 0x04, 0x01, 0x11, 0x03, 0x00, 0x00, 0x00] ++ upTo8Bytes

/-- The base advertising record of section 2.1. -/
def advBase : Buffer := [0xc7, 0x09, 0x01, 0x10, 0x00, 0x12, 0x34] ++ upTo8Bytes

/-! ### Well-formedness: every check refuses an ill-formed term -/

/-- Zero bytes, as many as asked for. -/
def zeros (n : Nat) : Buffer := List.replicate n 0#8

theorem zeros_fits (n : Nat) : (zeros n).fits = decide (n < 65536) := by
  rw [Buffer.fits, zeros, List.length_replicate]

theorem test_wf_refuses_long_tdec : (Instr.tdec (zeros 65536)).wf = false := zeros_fits 65536
theorem test_wf_refuses_long_fsdec : (Instr.fsdec (zeros 65536)).wf = false := zeros_fits 65536
theorem test_wf_refuses_long_adec : (Instr.adec (zeros 65536)).wf = false := zeros_fits 65536
theorem test_wf_refuses_long_fbuild : (Instr.fbuild 4#8 (zeros 65536)).wf = false := zeros_fits 65536
theorem test_wf_refuses_long_fparse : (Instr.fparse (zeros 65536)).wf = false := zeros_fits 65536
theorem test_wf_refuses_long_crc16 : (Instr.crc16 (zeros 65536)).wf = false := zeros_fits 65536
theorem test_wf_accepts_longest : (Instr.tdec (zeros 65535)).wf = true := zeros_fits 65535
theorem test_params_wf_default : defaultParams.wf = true := by decide
theorem test_params_wf_refuses_shared_type : Params.wf { defaultParams with mtLog := 1#8 } = false := by decide
theorem test_params_wf_refuses_log_minimum : Params.wf { defaultParams with logMinLen := 18 } = false := by decide
/-- Two fields on one bit, a field past the end, and a field of another width, in each layout where they can be. -/
theorem test_wf_refuses_mode_layouts :
    ∀ f ∈ [(⟨1, 2⟩ : FieldPlace), ⟨7, 2⟩, ⟨0, 1⟩], ({ printedLayouts.modeByte with mode := f } : ModeLayout).wf = false := by
  decide
theorem test_wf_refuses_battery_layouts :
    ∀ f ∈ [(⟨0, 3⟩ : FieldPlace), ⟨1, 4⟩, ⟨6, 3⟩],
      ({ printedLayouts.batteryByte with core := f } : BatteryLayout).wf = false := by decide
theorem test_wf_refuses_hop_layout : Layouts.wf { printedLayouts with hopByte := ⟨7, 2⟩ } = false := by decide
theorem test_wf_refuses_food_safe_layouts :
    ∀ f ∈ [(⟨0, 17⟩ : FieldPlace), ⟨12, 16⟩, ⟨70, 16⟩],
      ({ printedLayouts.foodSafe with sel := f } : FoodSafeLayout).wf = false := by decide

/-! ### Decoding: a word for every constructor, from R80 to R82 -/

theorem test_decode_nop : decode [0x00#8] = .ok (.nop, []) := by decide
theorem test_decode_rst : decode [0x01#8] = .ok (.rst, []) := by decide
theorem test_decode_disc : decode [0x02#8] = .ok (.disc, []) := by decide
theorem test_decode_tdec : decode [0x10#8, 0x02#8, 0x00#8, 0xaa#8, 0xbb#8] = .ok (.tdec [0xaa#8, 0xbb#8], []) := by decide
theorem test_decode_tenc :
    decode [0x11#8, 0x01#8, 0x00#8, 0x02#8, 0x00#8, 0x03#8, 0x00#8, 0x04#8, 0x00#8, 0x05#8, 0x00#8, 0x06#8, 0x00#8, 0x07#8,
      0x00#8, 0x08#8, 0xa0#8] = .ok (.tenc ⟨1, 2, 3, 4, 5, 6, 7, 0xa008⟩, []) := by decide
theorem test_decode_mdec : decode [0x12#8, 0xe5#8] = .ok (.mdec 0xe5#8, []) := by decide
theorem test_decode_bdec : decode [0x13#8, 0xab#8] = .ok (.bdec 0xab#8, []) := by decide
theorem test_decode_hdec : decode [0x14#8, 0xfe#8] = .ok (.hdec 0xfe#8, []) := by decide
theorem test_decode_fsdec : decode [0x15#8, 0x01#8, 0x00#8, 0x77#8] = .ok (.fsdec [0x77#8], []) := by decide
theorem test_decode_fsenc :
    decode [0x16#8, 0x09#8, 0x20#8, 0x01#8, 0x00#8, 0x00#8, 0x00#8, 0xff#8, 0xff#8, 0xff#8, 0xff#8, 0x03#8, 0x00#8, 0x00#8,
      0x00#8, 0x04#8, 0x00#8, 0x00#8, 0x00#8, 0x05#8, 0x01#8, 0x00#8, 0x00#8] =
      .ok (.fsenc ⟨0x2009#16, 1#32, BitVec.ofInt 32 (-1), 3#32, 4#32, 261#32⟩, []) := by decide
theorem test_decode_adec : decode [0x17#8, 0x01#8, 0x00#8, 0xc7#8] = .ok (.adec [0xc7#8], []) := by decide
theorem test_decode_fbuild :
    decode [0x20#8, 0x04#8, 0x02#8, 0x00#8, 0x03#8, 0x06#8] = .ok (.fbuild 4#8 [0x03#8, 0x06#8], []) := by decide
theorem test_decode_fparse : decode [0x21#8, 0x01#8, 0x00#8, 0xca#8] = .ok (.fparse [0xca#8], []) := by decide
theorem test_decode_crc16 : decode [0x22#8, 0x00#8, 0x00#8] = .ok (.crc16 [], []) := by decide
/-- Program P1, step 3. -/
theorem test_decode_lsess :
    decode [0x30#8, 0x78#8, 0x56#8, 0x34#8, 0x12#8, 0xe8#8, 0x03#8] = .ok (.lsess 0x12345678#32 1000#16, []) := by decide
/-- Program P4, step 7. -/
theorem test_decode_lstat :
    decode ([0x31#8, 0x00#8, 0x00#8, 0x00#8, 0x00#8, 0xe8#8, 0x03#8, 0x00#8, 0x00#8] ++
      [0x90#8, 0x01#8, 0x90#8, 0x01#8, 0x90#8, 0x01#8, 0x90#8, 0x01#8, 0x90#8, 0x01#8, 0x90#8, 0x01#8, 0x90#8, 0x01#8,
        0x90#8, 0x01#8] ++ [0x01#8]) = .ok (.lstat 0#32 1000#32 (eight 400) .instantRead, []) := by decide
/-- Program P1, step 10. -/
theorem test_decode_lframe :
    decode [0x32#8, 0x03#8, 0x00#8, 0x00#8, 0x00#8, 0x01#8, 0x00#8, 0x02#8, 0x00#8, 0x03#8, 0x00#8, 0x04#8, 0x00#8, 0x05#8,
      0x00#8, 0x06#8, 0x00#8, 0x07#8, 0x00#8, 0x08#8, 0x00#8] = .ok (.lframe 3#32 upTo8, []) := by decide
theorem test_decode_lmiss :
    decode [0x33#8, 0x01#8, 0x00#8, 0x00#8, 0x80#8, 0x06#8, 0x00#8, 0x00#8, 0x00#8] =
      .ok (.lmiss 0x80000001#32 6#32, []) := by decide
theorem test_decode_lutd : decode [0x34#8] = .ok (.lutd, []) := by decide
/-- Program P2, step 11. -/
theorem test_decode_irqry :
    decode [0x40#8, 0x01#8, 0x03#8, 0x60#8, 0x09#8, 0x00#8, 0x00#8, 0x00#8, 0x00#8, 0x00#8, 0x00#8] =
      .ok (.irqry true 3#8 2400#64, []) := by decide
/-- Program P2, step 3. -/
theorem test_decode_iracc :
    decode [0x41#8, 0x8c#8, 0x0a#8, 0x00#8, 0x00#8, 0x00#8, 0x00#8, 0xc8#8, 0x00#8, 0x00#8, 0x00#8, 0x00#8, 0x00#8, 0x00#8,
      0x00#8] = .ok (.iracc 2700#32 false 0#8 200#64, []) := by decide
/-- Program P2, step 12. -/
theorem test_decode_irrd :
    decode [0x42#8, 0xff#8, 0x18#8, 0x00#8, 0x00#8, 0x00#8, 0x00#8, 0x00#8, 0x00#8] = .ok (.irrd 6399#64, []) := by decide
/-- Program P3, step 1. -/
theorem test_decode_pupd :
    decode [0x50#8, 0x01#8, 0x01#8, 0x01#8, 0x00#8, 0xbc#8, 0x1b#8, 0x00#8, 0x00#8, 0xf4#8, 0x01#8, 0x00#8, 0x00#8, 0x31#8,
      0x01#8, 0x00#8, 0x00#8, 0x64#8, 0x19#8, 0x00#8, 0x00#8, 0x04#8, 0x00#8, 0x00#8, 0x00#8, 0xe8#8, 0x03#8, 0x00#8, 0x00#8,
      0x00#8, 0x00#8, 0x00#8, 0x00#8] = .ok (.pupd true (st 305#32 6500#32) 4#32 1000#64, []) := by decide
theorem test_decode_prd : decode [0x51#8] = .ok (.prd, []) := by decide
theorem test_decode_ppct :
    decode [0x52#8, 0xd8#8, 0x0e#8, 0x00#8, 0x00#8, 0xf4#8, 0x01#8, 0x00#8, 0x00#8, 0xbc#8, 0x1b#8, 0x00#8, 0x00#8] =
      .ok (.ppct 3800#32 500#32 7100#32, []) := by decide
theorem test_decode_ptick : decode [0xe0#8] = .ok (.ptick, []) := by decide
theorem test_decode_pwdog : decode [0xe1#8] = .ok (.pwdog, []) := by decide

theorem test_decode_leaves_the_rest : decode [0x51#8, 0x34#8] = .ok (.prd, [0x34#8]) := by decide
theorem test_fetch_unknown_opcode : fetchCommand [0x7f#8] = .illegal := by decide
theorem test_fetch_internal_opcode : fetchCommand [0xe0#8, 0x00#8] = .illegal := by decide
theorem test_fetch_truncated : fetchCommand [0x33#8, 0x00#8] = .malformed .truncated := by decide
theorem test_fetch_empty : fetchCommand [] = .malformed .empty := by decide
theorem test_fetch_trailing : fetchCommand [0x51#8, 0x34#8] = .malformed .trailingBytes := by decide
theorem test_fetch_presence :
    fetchCommand [0x40#8, 0x02#8, 0x03#8, 0x60#8, 0x09#8, 0x00#8, 0x00#8, 0x00#8, 0x00#8, 0x00#8, 0x00#8] =
      .malformed (.badPresence 2#8) := by decide

/-! ### One step -/

theorem test_withFetchWord_runs_the_word : (State.reset.withFetchWord 8 0x34).agenda = [.command [0x34#8]] := by decide
theorem test_withFetchWord_timer : (State.reset.withFetchWord 8 0xe0).agenda = [.ticker] := by decide
/-- Section 2.6: opcode 7f. -/
theorem test_step_illegal :
    step { State.reset with agenda := [.command [0x7f#8]] } = .next { State.reset with rsp := [.illegal] } := by rfl

/-- Section 2.1. -/
theorem test_tenc_packs : answer (.tenc upTo8) State.reset = [.ok (.bytes upTo8Bytes)] := by decide
theorem test_tenc_masks :
    answer (.tenc ⟨8192, 8193, 65535, 0, 0, 0, 0, 0⟩) State.reset =
      [.ok (.bytes [0x00, 0x20, 0x00, 0xfc, 0x7f, 0x00, 0x00, 0x00, 0x00, 0x00, 0x00, 0x00, 0x00])] := by decide
theorem test_tdec_reads_lanes :
    answer (.tdec [1, 2, 3, 4, 5, 6, 7, 8, 9, 10, 11, 12, 13, 14]) State.reset =
      [.ok (.temps ⟨513, 24, 321, 3596, 4224, 1284, 4140, 417⟩)] := by decide
theorem test_tdec_short_is_absent : answer (.tdec [1, 2, 3, 4, 5, 6, 7, 8, 9, 10, 11, 12]) State.reset = [.absent] := by
  decide
theorem test_mdec_e5 : answer (.mdec 0xe5#8) State.reset = [.ok (.modeIdentity ⟨7, 1, .instantRead⟩)] := by decide
theorem test_bdec_ab : answer (.bdec 0xab#8) State.reset = [.ok (.sensors ⟨true, 5, 2, 2⟩)] := by decide
theorem test_bdec_unrecognised_core : answer (.bdec 0x0c#8) State.reset = [.ok (.sensors ⟨false, 0, 0, 0⟩)] := by decide
/-- The id in bits 2 to 0 and the mode in bits 7 to 6: e5 is 11 100 101. -/
theorem test_mdec_other_layout :
    answer (.mdec 0xe5#8)
      { State.reset with
        params := { defaultParams with
          layouts := { printedLayouts with modeByte := { mode := ⟨6, 2⟩, color := ⟨3, 3⟩, id := ⟨0, 3⟩ } } } } =
      [.ok (.modeIdentity ⟨5, 4, .error⟩)] := by decide
theorem test_hdec_fe : answer (.hdec 0xfe#8) State.reset = [.ok (.hop 2)] := by decide
theorem test_fsenc_rounds_and_wraps :
    answer (.fsenc ⟨0, BitVec.ofInt 32 (-5), 41000, 3, 2, 25⟩) State.reset =
      [.ok (.bytes [0x00, 0x00, 0xff, 0x1f, 0x01, 0x04, 0x00, 0x00, 0x30, 0x00])] := by decide
theorem test_fsdec_reads_fields :
    answer (.fsdec [0x09, 0x20, 0x42, 0x04, 0x19, 0xe4, 0x95, 0x32, 0x20, 0x04]) State.reset =
      [.ok (.foodSafe ⟨0x2009, 5450, 1000, 7005, 505, 660⟩)] := by decide
theorem test_adec_reads_record :
    answer (.adec (advBase ++ [0xe5, 0xab, 0x02])) State.reset =
      [.ok (.advert ⟨1, 0x10001234, ⟨1, 2, 3, 4, 5, 6, 7, 8⟩, ⟨7, 1, .instantRead⟩, ⟨true, 5, 2, 2⟩, some 2⟩)] := by decide
theorem test_adec_other_product :
    answer (.adec ([0xc7, 0x09, 0x02, 0x10, 0x00, 0x12, 0x34] ++ upTo8Bytes)) State.reset = [.absent] := by decide

set_option maxRecDepth 20000 in
/-- Section 2.2. -/
theorem test_crc16_two_bytes : answer (.crc16 [0x03, 0x00]) State.reset = [.ok (.crc 0x485c)] := by decide
/-- By hand from R151: 80 reflected is 01, whose bit leaves the register at the eighth shift, so the register is the
polynomial, and the final xor inverts it. -/
theorem test_crc16_other_parameters :
    crc16 { defaultParams with crcPoly := 0x8005, crcInit := 0, crcRefIn := true, crcXorOut := 0xffff } [0x80] = 0x7ffa := by
  decide
set_option maxRecDepth 20000 in
theorem test_fbuild_empty :
    answer (.fbuild 3 []) State.reset = [.ok (.bytes [0xca, 0xfe, 0x5c, 0x48, 0x03, 0x00])] := by decide
theorem test_fbuild_too_long : exec (.fbuild 2 (zeros 256)) State.reset = .next (answerIllegal State.reset) := by
  simp only [exec, execFbuild]
  rw [if_pos (by rw [zeros, List.length_replicate]; decide)]
set_option maxRecDepth 20000 in
theorem test_fparse_ack : answer (.fparse [0xca, 0xfe, 0x9d, 0xc8, 0x01, 0x01, 0x00]) State.reset =
    [.ok (.parsed [⟨1, true, .ack⟩] 7)] := by decide
set_option maxRecDepth 20000 in
theorem test_fparse_bad_crc : answer (.fparse [0xca, 0xfe, 0x9d, 0xc8, 0x01, 0x00, 0x00]) State.reset =
    [.ok (.parsed [] 0)] := by decide

/-- Section 2.3, program P1 and program P4. -/
theorem test_lsess_first : (after (.lsess 7 500) { State.reset with reqOut := true }).reqOut = false := by decide
theorem test_lsess_same : (after (.lsess 7 500) { withLog [] with reqOut := true }).reqOut = true := by decide
theorem test_lmiss_gap : answer (.lmiss 0 6) (withLog [0, 1, 2, 5, 6]) = [.ok (.missing 3)] := by decide
theorem test_lmiss_edge : answer (.lmiss 0 6) (withLog [0, 1, 2, 3, 4, 5]) = [.absent] := by decide
set_option maxRecDepth 20000 in
/-- Program P1, step 7: the request on TX. -/
theorem test_lstat_requests :
    (after (.lstat 0 5 (eight 400) .normal) (withLog [0, 1, 2])).tx =
      [[0xca, 0xfe, 0xc3, 0x11, 0x04, 0x08, 0x03, 0x00, 0x00, 0x00, 0x05, 0x00, 0x00, 0x00]] := by decide
/-- Program P1, step 14. -/
theorem test_lstat_up_to_date :
    answer (.lstat 0 3 (eight 400) .normal) (withLog [0, 1, 2]) = [.ok (.status true none)] := by decide
/-- Program P1, step 11: a new entry goes to its place. -/
theorem test_lframe_sorts : (after (.lframe 4 upTo8) (withLog [0, 5])).logs =
    [(7, [⟨0, maskTemps (eight 400)⟩, ⟨4, ⟨1, 2, 3, 4, 5, 6, 7, 8⟩⟩, ⟨5, maskTemps (eight 400)⟩])] := by decide
/-- Program P1, step 12: a stored entry stays, the request is retired. -/
theorem test_lframe_duplicate :
    (after (.lframe 5 upTo8) { withLog [0, 5] with reqOut := true, reqMax := 5 }).logs = (withLog [0, 5]).logs ∧
      (after (.lframe 5 upTo8) { withLog [0, 5] with reqOut := true, reqMax := 5 }).reqOut = false := by decide
theorem test_lutd : answer .lutd { State.reset with upToDate := true } = [.ok (.upToDate true)] := by decide

/-- Program P2. -/
def held : State := { State.reset with irValid := true, irValue := 2710, irTs := 1400, irHopPresent := true, irHop := 2 }
theorem test_irqry_window_elapsed : answer (.irqry true 3 2400) held = [.ok (.accept true)] := by decide
theorem test_irqry_inside_window : answer (.irqry true 3 2399) held = [.ok (.accept false)] := by decide
theorem test_iracc_better_path : (after (.iracc 2720 true 1 1500) held).irValue = 2720 := by decide
theorem test_iracc_worse_path : (after (.iracc 2720 true 3 1500) held).irValue = 2710 := by decide
theorem test_irrd_staleness : answer (.irrd 6399) held = [.ok (.value 2710)] ∧ answer (.irrd 6400) held = [.absent] := by
  decide
/-- Section 2.6. -/
theorem test_irrd_backward : answer (.irrd 6399) { held with timeMs := 6400 } = [.illegal] := by decide

/-- Section 2.5 and program P3. -/
theorem test_pupd_high_resolution :
    (ticking.prevInfo.secs, ticking.currentMs, ticking.stepPerTick, ticking.targetSeconds, ticking.tickerDeadline) =
      (120, 120000, 200, 115, 5200) := by decide
theorem test_pupd_low_resolution :
    (after (.pupd true (st 305 6500) 4 1000) State.reset).prevInfo =
      ⟨.predicting, .timeToRemoval, 0, 7100, 500, 6500, true, 300, 91⟩ := by decide
theorem test_prd_stale : answer .prd { ticking with predStale := true } = [.absent] := by decide
theorem test_ppct_half : answer (.ppct 3800 500 7100) State.reset = [.ok (.percent 50)] := by decide
theorem test_ppct_tie_goes_up : answer (.ppct 3833 500 7100) State.reset = [.ok (.percent 51)] := by decide
theorem test_ptick_walks : (after .ptick ticking).currentMs = 119800 ∧ (after .ptick ticking).prevInfo.secs = 119 := by decide
theorem test_pwdog_marks_stale :
    (after .pwdog { ticking with tickerArmed := false }).predStale = true ∧
      (after .pwdog { ticking with tickerArmed := false }).timeMs = 20000 := by decide
theorem test_nop : answer .nop held = [.ok .empty] := by decide
theorem test_rst_forgets : (after .rst ticking).prevInfoValid = false ∧ (after .rst ticking).pub = [] := by decide
theorem test_disc_stops_timers : (after .disc ticking).tickerArmed = false ∧ (after .disc ticking).prevInfoValid = true := by
  decide
set_option maxRecDepth 20000 in
/-- Rule R97 (c): a log record becomes LFRAME. -/
theorem test_unotify : expandUnotify defaultParams log3 = [.fparse log3, .lframe 3 upTo8] := by decide

/-! ### Witnesses: what meets the hypotheses of each obligation, clause by clause, at the boundary where there is one -/

theorem witness_rst_completes : ∃ t, exec .rst ticking = .next t := ⟨_, rfl⟩
theorem witness_tdec_lengths : (zeros 12).length < 13 ∧ 13 ≤ (zeros 13).length := by decide
theorem witness_temperature_lanes : decodeTemps upTo8Bytes = some ⟨1, 2, 3, 4, 5, 6, 7, 8⟩ := by decide
theorem witness_temperature_round_trips :
    upTo8Bytes.length = 13 ∧ (tempRaw defaultParams (-2000)).isSome = true ∧
      tempRaw defaultParams 38955 = some 8191#13 ∧ (tempRaw defaultParams (-2001)).isSome = false := by decide
theorem witness_fsdec_lengths : (zeros 9).length < 10 ∧ 10 ≤ (zeros 10).length := by decide
/-- The largest operands of R125 (b): 40957 and 2554. -/
def mostFoodSafe : FoodSafe := ⟨0xFFFF#16, 40957#32, 40957#32, 40957#32, 40957#32, 2554#32⟩
theorem witness_food_safe_range :
    (∀ v ∈ [mostFoodSafe.thr, mostFoodSafe.z, mostFoodSafe.ref, mostFoodSafe.d], 0 ≤ v.toInt ∧ v.toInt ≤ 40957) ∧
      0 ≤ mostFoodSafe.lr.toInt ∧ mostFoodSafe.lr.toInt ≤ 2554 := by simp [mostFoodSafe]
theorem witness_food_safe_twice :
    decodeFoodSafe defaultParams (encodeFoodSafe defaultParams mostFoodSafe) = some ⟨0xFFFF#16, 40955#32, 40955#32, 40955#32, 40955#32, 2550#32⟩ := by
  decide
/-- A layout that admits a selector of 10 bits, and the reserved bits it leaves. -/
def narrowSelector : Params :=
  { defaultParams with layouts := { printedLayouts with foodSafe := { printedLayouts.foodSafe with sel := ⟨4, 10⟩ } } }
theorem witness_layouts :
    defaultParams.layouts.wf = true ∧ narrowSelector.layouts.wf = true ∧ defaultParams.consts = tableConsts := by decide
theorem witness_food_safe_rest : RestIsZero (leNat (zeros 10)) 80 narrowSelector.layouts.foodSafe.places := by
  intro j _ _
  rw [show leNat (zeros 10) = 0 from rfl, Nat.zero_testBit]
/-- A bound on the input buffer, met exactly and exceeded by one. -/
theorem witness_rx_max :
    ∀ n, ({ defaultParams with rxMax := some 10 } : Params).rxMax = some n → (zeros 10).length ≤ n ∧ n < (zeros 11).length := by
  simp [zeros]
theorem test_rx_max_drops :
    let s := { State.reset with params := { defaultParams with rxMax := some 10 } }
    answer (.fsdec (zeros 11)) s = [.absent] ∧ answer (.fparse (zeros 11)) s = [.ok (.parsed [] 0)] := by decide
theorem test_rx_max_accepts :
    answer (.fsdec (zeros 10)) { State.reset with params := { defaultParams with rxMax := some 10 } } =
      [.ok (.foodSafe ⟨0, 0, 0, 0, 0, 0⟩)] := by decide
theorem witness_adec_refusals :
    (zeros 19).length < 20 ∧ leNat ((zeros 20).take 2) ≠ defaultParams.vendorId.toNat ∧
      byteAt (zeros 20) 2 ≠ defaultParams.productProbe := by decide
/-- Lengths 20, 21, 22 and 23: each optional byte at its first absence and its first presence. -/
theorem witness_adec_records :
    leNat (advBase.take 2) = State.reset.params.vendorId.toNat ∧ byteAt advBase 2 = State.reset.params.productProbe ∧
      advBase.length = 20 ∧ (advBase ++ zeros 1).length = 21 ∧ (advBase ++ zeros 2).length = 22 ∧
      (advBase ++ zeros 3).length = 23 := by decide
theorem witness_crc_output : defaultParams.crcRefOut = false ∧
    ({ defaultParams with crcRefOut := true } : Params).crcRefOut = true := by decide
theorem witness_crc_changed_byte : defaultParams.crcPoly.getLsbD 0 = true ∧ (0#8 : Byte) ≠ 1#8 := by decide
theorem witness_fbuild_lengths : (zeros 255).length ≤ 255 ∧ 255 < (zeros 256).length := by
  simp only [zeros, List.length_replicate]; omega
/-- Two frames, the second too short for its type, and a tail of 6 bytes. -/
def twoFrames : List ResponseParts := [⟨4#8, 1#8, zeros 17⟩, ⟨3#8, 1#8, zeros 5⟩]
theorem witness_fparse_frames :
    (∀ f ∈ twoFrames, f.mtype ∈ defaultParams.messageTypes ∧ f.payload.length ≤ 255) ∧ (zeros 6).length < 7 := by decide
/-- Each recognised type, at the last length without a record and the first with one. -/
theorem witness_fparse_records :
    defaultParams.wf = true ∧ (zeros 16).length < defaultParams.logMinLen ∧ defaultParams.logMinLen ≤ (zeros 17).length ∧
      (zeros 5).length < 6 ∧ 6 ≤ (zeros 6).length ∧ (zeros 0 : Buffer) = [] ∧ zeros 1 ≠ [] ∧
      [defaultParams.mtLog, defaultParams.mtSession, defaultParams.mtSetId, defaultParams.mtSetColor, defaultParams.mtSetPred,
        defaultParams.mtOverTemp] = [4, 3, 1, 2, 5, 6] := by decide
/-- A type next to the recognised ones, and a frame cut before its header, inside it and inside its payload. -/
theorem witness_fparse_stops :
    (7#8 : Byte) ∉ defaultParams.messageTypes ∧ (0#8 : Byte) ∉ defaultParams.messageTypes ∧
      ∀ k ∈ [0, 6, 7], k < (responseFrame defaultParams ⟨4#8, 1#8, zeros 1⟩).length := by decide
set_option maxRecDepth 20000 in
theorem witness_fparse_corrupted :
    let f : ResponseParts := ⟨4#8, 1#8, zeros 1⟩
    f.payload.length ≤ 255 ∧ 7 < (responseFrame defaultParams f).length ∧
      (1#8 : Byte) ≠ byteAt (responseFrame defaultParams f) 0 ∧
      (1#8 : Byte) ≠ byteAt (responseFrame defaultParams f) 7 := by decide

theorem witness_lsess_cases :
    State.reset.sessValid = false ∧ (withLog []).sessValid = true ∧ (withLog []).sessId = 7#32 ∧
      (withLog []).sessId ≠ 8#32 := by decide
theorem witness_lframe_cases :
    State.reset.sessValid = false ∧ (withLog [0]).sessValid = true ∧ HasRoom (withLog [0]) ∧ (withLog [0]).logs.read 7#32 0#32 = some (maskTemps (eight 400)) ∧
      (withLog [0]).logs.read 7#32 1#32 = none := by decide
/-- Both bounds of capacity, reached. -/
theorem witness_lframe_capacity :
    ({ withLog [0] with params := { defaultParams with logDepth := some 1 } } : State).params.logDepth = some 1 ∧
      1 ≤ (curLog (withLog [0])).length ∧
      ({ withLog [0] with params := { defaultParams with maxSessions := some 1 } } : State).params.maxSessions = some 1 ∧
      (withLog [0]).logs.log 8#32 = none ∧ 1 ≤ (withLog [0]).logs.length := by decide
/-- Room below both bounds: one more point of the log, of a session that exists and of one that is the last to fit. -/
def bounded (depth sessions : Nat) (s : State) : State :=
  { s with params := { defaultParams with logDepth := some depth, maxSessions := some sessions } }
theorem witness_lframe_room :
    HasRoom (bounded 2 1 (withLog [0])) ∧ HasRoom (bounded 1 2 { withLog [0] with sessId := 8#32 }) := by
  simp [HasRoom, bounded, curLog, withLog, logOf, Memory.log, State.reset]
theorem test_lframe_fills_the_log :
    (after (.lframe 1 upTo8) (bounded 2 1 (withLog [0]))).logs.read 7 1 = some (maskTemps upTo8) ∧
      (after (.lframe 2 upTo8) (bounded 2 1 (withLog [0, 1]))).logs.read 7 2 = none := by decide
theorem witness_lmiss_empty_range : (5#32 : U32).toNat < (6#32 : U32).toNat := by decide
theorem witness_lmiss_covered : ∀ n, (3#32 : U32).toNat ≤ n → n ≤ (3#32 : U32).toNat → Stored (withLog [3]) n := by
  intro n h1 h2
  have h : n = 3 := Nat.le_antisymm h2 h1
  subst h
  exact ⟨⟨3, maskTemps (eight 400)⟩, by decide, rfl⟩
theorem witness_lmiss_missing :
    ¬ Stored (withLog [4]) (5#32 : U32).toNat ∧
      ∀ n, (5#32 : U32).toNat ≤ n → n < (5#32 : U32).toNat → Stored (withLog [4]) n := by
  refine ⟨?_, fun n h1 h2 => absurd h2 (Nat.not_lt.2 h1)⟩
  rintro ⟨e, he, hs⟩
  have : e = ⟨4, maskTemps (eight 400)⟩ := by simpa [curLog, withLog, logOf, Memory.log] using he
  subst this
  exact absurd hs (by decide)
/-- The edge rule: `max` alone is missing and the last stored number is `max - 1`. -/
theorem witness_lmiss_edge :
    ¬ Stored (withLog [4]) (5#32 : U32).toNat ∧ (∃ n, Stored (withLog [4]) n ∧ n + 1 = (5#32 : U32).toNat) ∧
      ∀ n, Stored (withLog [4]) n → n + 1 ≤ (5#32 : U32).toNat := by
  refine ⟨witness_lmiss_missing.1, ⟨4, ⟨⟨4, maskTemps (eight 400)⟩, by decide, rfl⟩, rfl⟩, ?_⟩
  rintro n ⟨e, he, rfl⟩
  have : e = ⟨4, maskTemps (eight 400)⟩ := by simpa [curLog, withLog, logOf, Memory.log] using he
  subst this
  decide
theorem witness_cap_spans : (0#32 : U32).toNat ≤ (500#32 : U32).toNat ∧ (500#32 : U32).toNat - (0#32 : U32).toNat ≥ 500 ∧
    (499#32 : U32).toNat - (0#32 : U32).toNat < 500 := by decide
theorem witness_lstat_cases :
    HasRoom (withLog [0]) ∧ firstMissing (curLog (withLog [0])) 0 0 = none ∧ firstMissing (curLog (withLog [0])) 0 5 = some 1#32 ∧
      ({ withLog [0] with reqOut := true } : State).reqOut = true ∧ (withLog [0]).reqOut = false := by decide
set_option maxRecDepth 20000 in
theorem witness_lstat_normal_request :
    ∃ t, exec (.lstat 0 5 (eight 400) .normal) (withLog [0]) = .next t ∧
      Answers (.ok (.status false (some (1#32, 5#32)))) (withLog [0]) t := ⟨_, rfl, by decide⟩

theorem witness_irqry_time : State.reset.timeMs ≤ (0#64 : U64).toNat := by decide
/-- The three grounds of acceptance: direct, at the end of the window, an equal hop count inside it. -/
theorem witness_iracc_accepted :
    held.timeMs ≤ (2400#64 : U64).toNat ∧ ¬ (held.irValid = true ∧ (2400#64 : U64).toNat < held.irTs + 1000) ∧
      held.irHopPresent = true ∧ (2#8 : Byte).toNat ≤ held.irHop.toNat := by decide
theorem witness_iracc_rejected :
    held.timeMs ≤ (2399#64 : U64).toNat ∧ held.irValid = true ∧ (2399#64 : U64).toNat < held.irTs + 1000 ∧
      held.irHop.toNat < (3#8 : Byte).toNat ∧ ({ held with irHopPresent := false } : State).irHopPresent = false := by
  decide
theorem witness_irrd_cases :
    (6399#64 : U64).toNat < held.irTs + 5000 ∧ held.irTs + 5000 ≤ (6400#64 : U64).toNat ∧
      State.reset.irValid = false := by decide
theorem witness_backward_time : operandNow State.reset.params (.irrd 0#64) = some 0 ∧ 0 < ({ held with timeMs := 1 } : State).timeMs := by
  decide
theorem witness_arbitration :
    ∃ t, exec (.iracc 2500 true 1 0) State.reset = .next t ∧ Answers (.ok (.accepted true)) State.reset t ∧
      (0#64 : U64).toNat ≤ (999#64 : U64).toNat ∧ (999#64 : U64).toNat < (0#64 : U64).toNat + 1000 ∧
      (1#8 : Byte).toNat < (2#8 : Byte).toNat ∧ (0#64 : U64).toNat + 1000 ≤ (1000#64 : U64).toNat := ⟨_, rfl, by decide⟩

theorem witness_pupd_duplicate :
    ticking.timeMs ≤ (5000#64 : U64).toNat ∧ ticking.prevSeqValid = true ∧ ticking.prevSeq = 1#32 := by decide
/-- Neither a first update nor a new sequence number is a duplicate. -/
theorem witness_pupd_not_duplicate :
    ¬ (State.reset.prevSeqValid = true ∧ State.reset.prevSeq = 0#32) ∧
      ¬ (ticking.prevSeqValid = true ∧ ticking.prevSeq = 2#32) := by decide
/-- The ends of the two regimes, and the ways a display is kept or made. -/
theorem witness_pupd_regimes :
    300 < (st 301 7000).predSecs.toNat ∧ (st 14400 7000).predSecs.toNat ≤ 14400 ∧ (st 300 7000).predSecs.toNat ≤ 300 ∧
      (st 300 7000).state = 1#2 ∧ ticking.prevInfoValid = true ∧ ticking.prevInfo.secsValid = true ∧
      ticking.prevInfo.state = .predicting ∧ (2#32 : U32).toNat % 3 ≠ 0 ∧ (3#32 : U32).toNat % 3 = 0 ∧
      State.reset.prevInfoValid = false := by decide
theorem witness_prd_cases :
    ticking.prevInfoValid = true ∧ ticking.predStale = false ∧ State.reset.prevInfoValid = false ∧
      ({ ticking with predStale := true } : State).predStale = true := by decide
theorem witness_ppct_cases :
    (500#32 : S32).toInt ≤ (500#32 : S32).toInt ∧ (500#32 : S32).toInt < (501#32 : S32).toInt ∧
      (7100#32 : S32).toInt ≤ (7100#32 : S32).toInt ∧ (7099#32 : S32).toInt < (7100#32 : S32).toInt := by decide
/-- Both timers at one deadline: the ticker and the watchdog are both enabled (R243). -/
def tied : State := { ticking with tickerDeadline := 20000 }
theorem witness_ptick_enabled : tied.tickerArmed = true ∧ tied.tickerDeadline ≤ tied.wdogDeadline := by decide
theorem witness_pwdog_enabled :
    tied.wdogArmed = true ∧ tied.wdogDeadline ≤ tied.tickerDeadline ∧ (after .disc tied).tickerArmed = false := by decide
theorem witness_timers_disabled :
    ¬ (State.reset.tickerArmed = true ∧ State.reset.tickerDeadline ≤ State.reset.wdogDeadline) ∧
      ¬ (ticking.wdogArmed = true ∧ (ticking.tickerArmed = false ∨ ticking.wdogDeadline ≤ ticking.tickerDeadline)) := by
  decide
/-- The countdown that rises: a step of -800 ms (section 2.5). -/
def rising : State := after (.pupd true (st 140 7000) 2 5000) ticking
theorem witness_ticks_fall :
    ∃ t, exec .ptick ticking = .next t ∧ ticking.tickerArmed = true ∧ ticking.tickerDeadline ≤ ticking.wdogDeadline ∧
      ticking.prevInfo.secs = disp ticking.currentMs ∧
      t.currentMs = ticking.currentMs - ticking.stepPerTick ∧ 0 ≤ ticking.stepPerTick :=
  ⟨_, rfl, by decide⟩
theorem witness_ticks_rise :
    ∃ t, exec .ptick rising = .next t ∧ rising.tickerArmed = true ∧ rising.tickerDeadline ≤ rising.wdogDeadline ∧
      rising.prevInfo.secs = disp rising.currentMs ∧
      t.currentMs = rising.currentMs - rising.stepPerTick ∧ rising.stepPerTick < 0 :=
  ⟨_, rfl, by decide⟩
/-- A run of 75 ticks from one arming, with an LUTD and a duplicate PUPD before the first of them. -/
def tickRun : Nat → State
  | 0 => ticking
  | 1 => after .lutd ticking
  | 2 => after (.pupd true (st 120 7000) 1 5000) (after .lutd ticking)
  | n + 3 => tick (tickRun (n + 2))
def tickOps : Nat → Instr
  | 0 => .lutd
  | 1 => .pupd true (st 120 7000) 1 5000
  | _ + 2 => .ptick
theorem tickRun_timers (n : Nat) : (tickRun (n + 2)).tickerArmed = true ∧ (tickRun (n + 2)).wdogDeadline = 20000 ∧
    (tickRun (n + 2)).params = defaultParams ∧ (tickRun (n + 2)).tickerDeadline = 5200 + 200 * n := by
  induction n with
  | zero => decide
  | succ n ih =>
    refine ⟨ih.1, ih.2.1, ih.2.2.1, ?_⟩
    rw [show (tickRun (n + 3)).tickerDeadline =
      (tickRun (n + 2)).tickerDeadline + (tickRun (n + 2)).params.consts.tickMs from rfl, ih.2.2.1, ih.2.2.2]
    simp only [defaultParams, tableConsts]
    omega
theorem witness_seventy_five_ticks :
    ConstInv (tickRun 0) ∧ (tickRun 0).tickerDeadline = 5000 + 200 ∧ (tickRun 0).wdogDeadline = 5000 + 15000 ∧
      (∀ k, k < 77 → exec (tickOps k) (tickRun k) = .next (tickRun (k + 1))) ∧
      (∀ k, k < 77 → ∀ present st seq time, tickOps k = .pupd present st seq time →
        (tickRun k).prevSeqValid = true ∧ (tickRun k).prevSeq = seq) ∧
      ∀ k, k < 75 → tickOps (k + 2) = .ptick ∧ tickEnabled (tickRun (k + 2)) = true := by
  have enabled : ∀ k, k < 75 → tickEnabled (tickRun (k + 2)) = true := fun k hk => by
    have h := tickRun_timers k
    rw [tickEnabled, h.1, h.2.1, h.2.2.2, Bool.true_and, decide_eq_true_eq]
    omega
  refine ⟨rfl, rfl, rfl, fun k hk => ?_, fun k hk present st seq time h => ?_, fun k hk => ⟨rfl, enabled k hk⟩⟩
  · match k with
    | 0 => rfl
    | 1 => rfl
    | k + 2 => exact if_pos (enabled k (by omega))
  · match k with
    | 0 => cases h
    | 1 => cases h; exact ⟨rfl, rfl⟩
    | k + 2 => cases h

/-- A host command without `now`, and one whose `now` is the deadline of an armed timer. -/
theorem witness_step_runs :
    decode [0x34#8] = .ok (.lutd, []) ∧ operandNow defaultParams .lutd = none ∧
      decode (encode (.irrd 5200#64)) = .ok (.irrd 5200#64, []) ∧
      (5200#64 : U64).toNat ≤ ticking.tickerDeadline ∧ (5200#64 : U64).toNat ≤ ticking.wdogDeadline := by decide
/-- A ticker due, a watchdog due with the ticker stopped, and both at one deadline. -/
theorem witness_step_due_timers :
    decode (encode (.irrd 20001#64)) = .ok (.irrd 20001#64, []) ∧ operandNow ticking.params (.irrd 20001#64) = some 20001 ∧
      ticking.wdogArmed = true ∧ ticking.tickerArmed = true ∧ ticking.tickerDeadline < 5201 ∧
      ticking.tickerDeadline < ticking.wdogDeadline ∧ tied.tickerDeadline = tied.wdogDeadline ∧
      tied.wdogDeadline < 20001 := by decide
/-- The low-resolution regime: the watchdog armed, the ticker stopped, a command past the deadline. -/
def watched : State := after (.pupd true (st 305 6500) 4 5000) State.reset
theorem witness_step_watchdog_alone :
    watched.wdogArmed = true ∧ watched.tickerArmed = false ∧ watched.wdogDeadline < 20001 ∧
      operandNow watched.params (.irrd 20001#64) = some 20001 := by decide
/-- The opcodes next to those of R80, and the two internal ones. -/
theorem witness_unissuable :
    ∀ op ∈ [0x03, 0x0F, 0x18, 0x1F, 0x23, 0x2F, 0x35, 0x3F, 0x43, 0x4F, 0x53, 0xE0, 0xE1, 0xFF],
      op ∉ [0x00, 0x01, 0x02, 0x10, 0x11, 0x12, 0x13, 0x14, 0x15, 0x16, 0x17, 0x20, 0x21, 0x22, 0x30, 0x31, 0x32, 0x33,
        0x34, 0x40, 0x41, 0x42, 0x50, 0x51, 0x52] := by decide
theorem witness_refused_step :
    step { State.reset with agenda := [.command [0x33#8]] } = .refused (.malformedCommand .truncated) := rfl
theorem witness_host_command : (Instr.lmiss 0 6).wf = true := rfl
theorem witness_lstat_writes :
    ∃ t, exec (.lstat 0 5 (eight 400) .normal) { withLog [0] with upToDate := true } = .next t ∧ t.tx ≠ [] ∧
      t.upToDate ≠ true ∧ t.logs ≠ (withLog [0]).logs := ⟨_, rfl, by decide⟩
theorem witness_ptick_publishes : ∃ t, exec .ptick ticking = .next t ∧ t.pub ≠ ticking.pub := ⟨_, rfl, by decide⟩
/-- A step that runs LUTD over a stored entry, from a state that meets every invariant. -/
def busy : State :=
  { withLog [0, 5] with
    agenda := [.command [0x34#8]], reqOut := true, reqMin := 1, reqMax := 5, irValid := true, timeMs := 5000,
    irTs := 5000, prevInfoValid := true, prevInfo := ticking.prevInfo, prevSeqValid := true,
    currentMs := 120000, tickerArmed := true, tickerDeadline := 5000, wdogArmed := true, wdogDeadline := 20000,
    pub := [some ticking.prevInfo] }
theorem witness_log_entry :
    busy.logs.read 7#32 5#32 = some (maskTemps (eight 400)) ∧ fetchCommand [0x34#8] ≠ .run .rst := by decide
theorem witness_busy_step : ∃ t, step busy = .next t := ⟨_, rfl⟩
theorem witness_invariants :
    ConstInv busy ∧ WidthInv busy ∧ LogStoreInv busy ∧ RequestInv busy ∧ ArbInv busy ∧ SmoothInv busy ∧ TimeInv busy := by decide
/-- The same for the premise of the statements whose rules give constants. -/
theorem witness_constants : ConstInv State.reset ∧ ConstInv ticking ∧ ConstInv held ∧ ConstInv rising := by decide
theorem witness_publication : PubInv busy := by
  intro e h
  simpa [busy] using h.symm

end Sys2Proof.Machine.Tests
end

section
/-! PROOFS. What the reset values of R47 give: every invariant whose premise is a flag holds because R47 clears that flag,
so the invariants are proved for any state with those values and then used at power-on. -/

namespace Sys2Proof.Machine

/-! ### The parameter table at power-on -/

/-- The printed layouts fit their strings and share no bit (R63, R116, R118, R120, R122). -/
theorem printedLayouts_wf : printedLayouts.wf = true := by decide

/-- R5 admits its own defaults: distinct message types (D2), the shorter log record (D3), the printed layouts. -/
theorem defaultParams_wf : defaultParams.wf = true := by
  have distinct : defaultParams.messageTypes.Nodup := by decide
  have logMin : defaultParams.logMinLen = 17 := rfl
  have layouts : defaultParams.layouts.wf = true := printedLayouts_wf
  simp [Params.wf, distinct, logMin, layouts]

/-! ### The invariants of a state with the values of R47 -/

theorem reset_hasResetValues : HasResetValues State.reset := by
  simp [HasResetValues, State.reset]

@[simp] theorem wrapLin_zero (p : Params) : wrapLin p 0 = 0 := by simp [wrapLin]

/-- With every valid, armed and status flag 0, no log, zero linearization registers and nothing published, all invariants but
that of the constants hold, whatever the registers R47 leaves unspecified contain. -/
theorem HasResetValues.invariants {s : State} (h : HasResetValues s) :
    WidthInv s ∧ LogStoreInv s ∧ RequestInv s ∧ ArbInv s ∧ SmoothInv s ∧ TimeInv s ∧ PubInv s := by
  obtain ⟨-, -, logs, reqOut, -, irValid, -, prevInfoValid, -, -, stepPerTick, currentMs, tickerArmed, wdogArmed, predStale,
    -, pub⟩ := h
  refine ⟨?width, ?logStore, ?request, ?arb, ?smooth, ?time, ?publication⟩
  case width => simp [WidthInv, currentMs, stepPerTick]
  case logStore =>
    rw [LogStoreInv, logs]
    exact reset_logs_wf
  case request => simp [RequestInv, reqOut]
  case arb => simp [ArbInv, irValid]
  case smooth => simp [SmoothInv, TickerInv, DisplayInv, DeadlineInv, SeqInv, tickerArmed, prevInfoValid]
  case time => simp [TimeInv, tickerArmed, wdogArmed, predStale]
  case publication => simp [PubInv, pub]

/-- Settles O60: the constants are the table's by definition, the other invariants follow from the values of R47. -/
theorem resetMeetsInvariants : Obligations.ResetMeetsInvariants := by
  have constants : ConstInv State.reset := rfl
  exact ⟨⟨constants, reset_hasResetValues.invariants⟩, rfl, rfl, rfl, defaultParams_wf⟩

end Sys2Proof.Machine
end

section
/-! PROOFS. What one operation writes, said once: `Effect` lists every change that the meaning of an operation makes to the
registers, `exec_effect` says there is no other, and `step_preserves` carries a claim about registers from the effects to a
step. The claims about every step are then case splits over the effects. -/

namespace Sys2Proof.Machine

/-! ### Effects -/

/-- The log store after an LSTAT recorded its point, which it does in mode NORMAL only (R187). -/
def statusLogs (max : U32) (r : RawTemps) (mode : OpMode) (s : State) : Memory :=
  if mode = .normal then (appendPoint max (maskTemps r) s).logs else s.logs

/-- `Effect s i t`: from the state `s` the operation `i` can leave the state `t`, its response on RSP apart. -/
inductive Effect (s : State) : Instr → State → Prop
  /-- A pure operation, a query without `now`, an ILLEGAL answer, a timer's turn that does nothing. -/
  | unchanged (i : Instr) : Effect s i s
  /-- An operation that carries `now` and writes nothing else (R287 (a)). -/
  | timeOnly {i : Instr} {now : Nat} (operand : operandNow s.params i = some now) (forward : s.timeMs ≤ now) :
      Effect s i { s with timeMs := now }
  | reset : Effect s .rst (afterReset s)
  | disconnect : Effect s .disc { s with tickerArmed := false, wdogArmed := false, reqOut := false }
  | session (id : U32) (periodMs : U16) :
      Effect s (.lsess id periodMs)
        { s with
          reqOut := if !s.sessValid || decide (s.sessId ≠ id) then false else s.reqOut
          sessValid := true
          sessId := id
          sessPeriodMs := periodMs }
  | logFrame (seq : U32) (r : RawTemps) :
      Effect s (.lframe seq r)
        { s with
          logs := (appendPoint seq (maskTemps r) s).logs
          reqOut := if s.reqOut && decide (seq = s.reqMax) then false else s.reqOut }
  /-- LSTAT that finds no gap. -/
  | covered (min max : U32) (r : RawTemps) (mode : OpMode) :
      Effect s (.lstat min max r mode) { s with logs := statusLogs max r mode s, upToDate := true, reqOut := false }
  /-- LSTAT that finds a gap while a request is outstanding. -/
  | pending (min max : U32) (r : RawTemps) (mode : OpMode) :
      Effect s (.lstat min max r mode) { s with logs := statusLogs max r mode s, upToDate := false }
  /-- LSTAT that finds a gap from `m` on and emits a request for it. -/
  | requested (min max : U32) (r : RawTemps) (mode : OpMode) (m : U32)
      (gap : firstMissing (curLog { s with logs := statusLogs max r mode s }) min max = some m) :
      Effect s (.lstat min max r mode)
        { s with
          logs := statusLogs max r mode s
          upToDate := false
          reqOut := true
          reqMin := m
          reqMax := capRequest s.params m max
          tx := s.tx ++ [requestFrame s.params m (capRequest s.params m max)] }
  | accepted (value : S32) (hopPresent : Bool) (hop : Byte) (now : U64) (forward : s.timeMs ≤ clock s.params now) :
      Effect s (.iracc value hopPresent hop now)
        (acceptCandidate value hopPresent hop (clock s.params now) { s with timeMs := clock s.params now })
  | updated (present : Bool) (st : PredictionStatus) (seq : U32) (now : U64) (forward : s.timeMs ≤ clock s.params now) :
      Effect s (.pupd present st seq now)
        (updatePrediction present st seq (clock s.params now) { s with timeMs := clock s.params now })
  | ticked (enabled : tickEnabled s = true) : Effect s .ptick (tick s)
  | watchdogFired (enabled : wdogEnabled s = true) : Effect s .pwdog (watchdogFires s)

/-- `t` is `u`, with at most one response more. -/
def WithResponse (u t : State) : Prop := t = u ∨ ∃ r, t = respond r u

/-- An operation that ends in a response has the effect it was computed with. -/
theorem effect_of_reply {s u t : State} {i : Instr} {r : Response} (effect : Effect s i u) (h : reply r u = .next t) :
    ∃ u, Effect s i u ∧ WithResponse u t :=
  ⟨u, effect, .inr ⟨r, ((reply_eq_next r u t).1 h).symm⟩⟩

/-- An operation that ends without a response has the effect it was computed with. -/
theorem effect_of_next {s u t : State} {i : Instr} (effect : Effect s i u)
    (h : (.next u : Answer) = .next t) : ∃ u, Effect s i u ∧ WithResponse u t := by
  cases h
  exact ⟨u, effect, .inl rfl⟩

/-- An operation that carries `now`: an ILLEGAL answer changes nothing, otherwise the meaning runs at its `now`. -/
theorem effect_of_atTime {s t : State} {i : Instr} {now : U64} {k : State → Answer} (h : atTime now s k = .next t)
    (effect : s.timeMs ≤ clock s.params now → k { s with timeMs := clock s.params now } = .next t →
      ∃ u, Effect s i u ∧ WithResponse u t) :
    ∃ u, Effect s i u ∧ WithResponse u t := by
  rcases atTime_cases now s t k h with ⟨-, rfl⟩ | ⟨forward, hk⟩
  · exact ⟨s, .unchanged i, .inr ⟨.illegal, rfl⟩⟩
  · exact effect forward hk

/-- The evaluation of a status starts from the state whose log store alone may be written. -/
theorem execLstat_eq (min max : U32) (r : RawTemps) (mode : OpMode) (s : State) :
    execLstat min max r mode s = evaluateGap min max { s with logs := statusLogs max r mode s } := by
  unfold execLstat statusLogs
  split
  · rw [appendPoint_eq]
  · rfl

/-- LFRAME retires the request in the state whose log store alone may be written. -/
theorem retire_appendPoint_eq (seq : U32) (t : TempSet) (s : State) :
    retire seq (appendPoint seq t s) =
      { s with
        logs := (appendPoint seq t s).logs
        reqOut := if s.reqOut && decide (seq = s.reqMax) then false else s.reqOut } := by
  rw [appendPoint_eq]
  rfl

theorem execLstat_effect {min max : U32} {r : RawTemps} {mode : OpMode} {s t : State}
    (h : execLstat min max r mode s = .next t) : ∃ u, Effect s (.lstat min max r mode) u ∧ WithResponse u t := by
  rw [execLstat_eq] at h
  rcases evaluateGap_cases _ _ _ _ h with ⟨-, rfl⟩ | ⟨m, -, -, rfl⟩ | ⟨m, gap, -, rfl⟩
  · exact ⟨_, .covered min max r mode, .inr ⟨_, rfl⟩⟩
  · exact ⟨_, .pending min max r mode, .inr ⟨_, rfl⟩⟩
  · exact ⟨_, .requested min max r mode m gap, .inr ⟨_, rfl⟩⟩

/-- Every operation and event has one of the effects, and gives at most one response. -/
theorem exec_effect (i : Instr) (s t : State) (h : exec i s = .next t) : ∃ u, Effect s i u ∧ WithResponse u t := by
  cases i with
  | nop | tdec | tenc | mdec | bdec | hdec | fsdec | fsenc | adec | fparse | crc16 | lmiss | lutd | ppct =>
    exact effect_of_reply (.unchanged _) h
  | fbuild mtype payload =>
    simp only [exec, execFbuild] at h
    split at h
    · exact effect_of_reply (r := .illegal) (.unchanged _) h
    · exact effect_of_reply (.unchanged _) h
  | prd =>
    simp only [exec, execPrd] at h
    split at h <;> exact effect_of_reply (.unchanged _) h
  | rst => exact effect_of_reply .reset h
  | disc => exact effect_of_reply .disconnect h
  | lsess id periodMs => exact effect_of_reply (.session id periodMs) h
  | lframe seq r =>
    simp only [exec, execLframe, retire_appendPoint_eq] at h
    exact effect_of_reply (.logFrame seq r) h
  | lstat min max r mode => exact execLstat_effect h
  | irqry hopPresent hop now =>
    simp only [exec, execIrqry] at h
    exact effect_of_atTime h fun forward hk => effect_of_reply (.timeOnly rfl forward) hk
  | iracc value hopPresent hop now =>
    simp only [exec, execIracc] at h
    refine effect_of_atTime h fun forward hk => ?_
    split at hk
    · exact effect_of_reply (.accepted value hopPresent hop now forward) hk
    · exact effect_of_reply (.timeOnly rfl forward) hk
  | irrd now =>
    simp only [exec, execIrrd] at h
    refine effect_of_atTime h fun forward hk => ?_
    split at hk <;> exact effect_of_reply (.timeOnly rfl forward) hk
  | pupd present st seq now =>
    simp only [exec, execPupd] at h
    refine effect_of_atTime h fun forward hk => ?_
    split at hk
    · exact effect_of_reply (.timeOnly rfl forward) hk
    · exact effect_of_reply (.updated present st seq now forward) hk
  | ptick =>
    simp only [exec, execPtick] at h
    split at h
    · exact effect_of_next (.ticked ‹_›) h
    · exact effect_of_next (.unchanged _) h
  | pwdog =>
    simp only [exec, execPwdog] at h
    split at h
    · exact effect_of_next (.watchdogFired ‹_›) h
    · exact effect_of_next (.unchanged _) h

/-! ### From effects to steps -/

/-- A claim that reads neither the agenda, nor the responses given, nor the count of free draws. -/
def IgnoresRecords (P : State → Prop) : Prop :=
  ∀ (s : State) (agenda : List Event) (rsp : List Response) (freeCount : Nat), P s →
    P { s with agenda := agenda, rsp := rsp, freeCount := freeCount }

/-- What can run in a step from `s`: a timer's event, or the operation of the command first on the agenda. -/
def Runs (s : State) (i : Instr) : Prop :=
  i = .ptick ∨ i = .pwdog ∨ ∃ bytes rest, s.agenda = .command bytes :: rest ∧ fetchCommand bytes = .run i

theorem IgnoresRecords.withResponse {P : State → Prop} (ign : IgnoresRecords P) {u t : State} (h : WithResponse u t)
    (hu : P u) : P t := by
  rcases h with rfl | ⟨r, rfl⟩
  · exact hu
  · exact ign u _ _ _ hu

/-- A claim about registers that the effect of an operation has, the operation has. -/
theorem exec_preserves {P : State → Prop} (ign : IgnoresRecords P) {i : Instr} {s t : State} (h : exec i s = .next t)
    (effect : ∀ u, Effect s i u → P u) : P t := by
  obtain ⟨u, hu, hut⟩ := exec_effect i s t h
  exact ign.withResponse hut (effect u hu)

/-- A claim about registers that every effect keeps, every step keeps. What runs was taken up from the agenda, and no timer
was due before its `now` (R287 (b)). -/
theorem step_preserves {P : State → Prop} (ign : IgnoresRecords P) {s t : State} (h : step s = .next t) (hs : P s)
    (effect : ∀ i u v, Runs s i → dueTimer (operandNow u.params i) u = none → P u → Effect u i v → P v) : P t := by
  have run {i u} (runs : Runs s i) (due : dueTimer (operandNow u.params i) u = none) (hu : P u)
      (h : exec i u = .next t) : P t :=
    exec_preserves ign h fun v => effect i u v runs due hu
  have taken (rest) : P (withAgenda rest s) := ign s rest _ _ hs
  rcases step_cases s t h with ⟨-, rfl⟩ | ⟨rest, -, h⟩ | ⟨rest, -, h⟩ | ⟨_, rest, -, -, rfl⟩ |
    ⟨_, _, _, timer, -, -, due, h⟩ | ⟨bytes, rest, i, ha, hf, due, h⟩
  · exact hs
  · exact run (.inl rfl) rfl (taken rest) h
  · exact run (.inr (.inl rfl)) rfl (taken rest) h
  · exact ign s rest _ _ hs
  · rcases dueTimer_internal _ _ _ due with rfl | rfl
    · exact run (.inl rfl) rfl (ign s _ _ _ hs) h
    · exact run (.inr (.inl rfl)) rfl (ign s _ _ _ hs) h
  · exact run (u := withAgenda rest s) (.inr (.inr ⟨bytes, rest, ha, hf⟩)) due (taken rest) h

end Sys2Proof.Machine
end

section
/-! PROOFS. Who writes what, the reset values, and the log store: what the effects of `Effect` leave unchanged, and what they
make of the log store and of the outstanding request. -/

namespace Sys2Proof.Machine

/-! ### What an update and an accepted candidate leave unchanged -/

/-- The countdown of a status keeps every register but the linearization ones (R235). -/
theorem secondsRemaining_keeps (st : PredState) (ps seq : U32) (s : State) :
    ∃ target step current, (secondsRemaining st ps seq s).2.2 =
      { s with targetSeconds := target, stepPerTick := step, currentMs := current } :=
  ⟨_, _, _, secondsRemaining_state st ps seq s⟩

/-- PUPD writes no register of another unit, nothing on TX, and keeps the time it was given (R232). -/
theorem updatePrediction_frame (present : Bool) (st : PredictionStatus) (seq : U32) (now : Nat) (s : State) :
    let t := updatePrediction present st seq now s
    KeepsLog s t ∧ KeepsArb s t ∧ KeepsOutside s t ∧ t.timeMs = s.timeMs ∧ t.tx = s.tx := by
  cases present with
  | false => simp [updatePrediction, KeepsLog, KeepsArb, KeepsOutside]
  | true =>
    obtain ⟨target, step, current, h⟩ :=
      secondsRemaining_keeps (predStateOfCode st.state) st.predSecs seq { s with tickerArmed := false }
    simp [updatePrediction, KeepsLog, KeepsArb, KeepsOutside, h]

/-- RST gives every value of R47. -/
theorem afterReset_hasResetValues (s : State) : HasResetValues (afterReset s) := by
  simp [HasResetValues, afterReset, State.reset]

/-- Settles O3: `reset_hasResetValues` for power-on, `afterReset_hasResetValues` for RST, whose response changes no
register. -/
theorem powerOnAndRstHaveResetValues : Obligations.PowerOnAndRstHaveResetValues := by
  refine ⟨reset_hasResetValues, fun s t h => ?_⟩
  rw [← (reply_eq_next _ _ _).1 h]
  exact afterReset_hasResetValues s

/-! ### Who writes what -/

/-- No effect touches the parameters or the agenda (R25). -/
theorem Effect.keepsOutside {s t : State} {i : Instr} (h : Effect s i t) : KeepsOutside s t := by
  cases h with
  | unchanged | timeOnly | reset | disconnect | session | logFrame | covered | pending | requested | ticked
  | watchdogFired => exact ⟨rfl, rfl⟩
  | accepted =>
    rw [acceptCandidate_eq]
    exact ⟨rfl, rfl⟩
  | updated present st seq now =>
    obtain ⟨-, -, outside, -⟩ :=
      updatePrediction_frame present st seq (clock s.params now) { s with timeMs := clock s.params now }
    exact outside

theorem Effect.keepsConstInv {s t : State} {i : Instr} (h : Effect s i t) (consts : ConstInv s) : ConstInv t := by
  rw [ConstInv, h.keepsOutside.1, consts]

/-- TX, the up-to-date flag, the log store and PUB in the state an effect leaves, RST apart: each is as before, or the
operation is one that may write it (R27, R31, R43, R45). -/
theorem Effect.writers {s t : State} {i : Instr} (h : Effect s i t) (notRst : i ≠ .rst) :
    (t.tx = s.tx ∨ ∃ min max r mode, i = .lstat min max r mode) ∧
      (t.upToDate = s.upToDate ∨ ∃ min max r mode, i = .lstat min max r mode) ∧
      (t.logs = s.logs ∨ (∃ min max r mode, i = .lstat min max r mode) ∨ ∃ seq r, i = .lframe seq r) ∧
      (t.pub = s.pub ∨ i = .ptick ∨ ∃ present st seq now, i = .pupd present st seq now) := by
  cases h with
  | reset => exact absurd rfl notRst
  | unchanged | timeOnly | disconnect | session | watchdogFired =>
    exact ⟨.inl rfl, .inl rfl, .inl rfl, .inl rfl⟩
  | logFrame seq r => exact ⟨.inl rfl, .inl rfl, .inr (.inr ⟨seq, r, rfl⟩), .inl rfl⟩
  | covered min max r mode | pending min max r mode | requested min max r mode =>
    have lstat : ∃ a b c d, Instr.lstat min max r mode = .lstat a b c d := ⟨min, max, r, mode, rfl⟩
    exact ⟨.inr lstat, .inr lstat, .inr (.inl lstat), .inl rfl⟩
  | accepted => simp [acceptCandidate_eq]
  | updated present st seq now =>
    obtain ⟨⟨-, -, -, logs, -, -, -, upToDate⟩, -, -, -, tx⟩ :=
      updatePrediction_frame present st seq (clock s.params now) { s with timeMs := clock s.params now }
    exact ⟨.inl tx, .inl upToDate, .inl logs, .inr (.inr ⟨present, st, seq, now, rfl⟩)⟩
  | ticked => exact ⟨.inl rfl, .inl rfl, .inl rfl, .inr (.inl rfl)⟩

/-- A response is no write to TX, PUB, the log store, the parameters or the agenda. -/
theorem WithResponse.keeps {u t : State} (h : WithResponse u t) :
    t.tx = u.tx ∧ t.upToDate = u.upToDate ∧ t.logs = u.logs ∧ t.pub = u.pub ∧ KeepsOutside u t := by
  rcases h with rfl | ⟨r, rfl⟩ <;> exact ⟨rfl, rfl, rfl, rfl, rfl, rfl⟩

/-- Settles O54: from the effects, since a response writes none of these. -/
theorem whoWritesWhat : Obligations.WhoWritesWhat := by
  refine ⟨fun i s t h => ?outside, fun s t h => ?params, fun i s t h notRst => ?writers⟩
  case outside =>
    obtain ⟨u, effect, response⟩ := exec_effect i s t h
    obtain ⟨-, -, -, -, params, agenda⟩ := response.keeps
    exact ⟨params.trans effect.keepsOutside.1, agenda.trans effect.keepsOutside.2⟩
  case params =>
    exact step_preserves (P := fun t => t.params = s.params) (fun _ _ _ _ h => h) h rfl
      fun _ _ _ _ _ same effect => effect.keepsOutside.1.trans same
  case writers =>
    obtain ⟨u, effect, response⟩ := exec_effect i s t h
    obtain ⟨tx, upToDate, logs, pub, -⟩ := response.keeps
    rw [tx, upToDate, logs, pub]
    obtain ⟨tx, upToDate, logs, pub⟩ := effect.writers notRst
    exact ⟨tx.resolve_left, upToDate.resolve_left, logs.resolve_left, pub.resolve_left⟩

/-! ### The log store -/

/-- What an LSTAT leaves of the log store: as before, or with its point appended (R187). -/
theorem statusLogs_cases (max : U32) (r : RawTemps) (mode : OpMode) (s : State) :
    statusLogs max r mode s = s.logs ∨ ∃ seq temps, statusLogs max r mode s = (appendPoint seq temps s).logs := by
  unfold statusLogs
  split
  · exact .inr ⟨max, maskTemps r, rfl⟩
  · exact .inl rfl

/-- RST apart, an effect leaves the log store as it was or appends one point to it (R27, R182). -/
theorem Effect.logs_cases {s t : State} {i : Instr} (h : Effect s i t) (notRst : i ≠ .rst) :
    t.logs = s.logs ∨ ∃ seq temps, t.logs = (appendPoint seq temps s).logs := by
  cases h with
  | reset => exact absurd rfl notRst
  | unchanged | timeOnly | disconnect | session | ticked | watchdogFired => exact .inl rfl
  | logFrame seq r => exact .inr ⟨seq, maskTemps r, rfl⟩
  | covered _ max r mode | pending _ max r mode | requested _ max r mode => exact statusLogs_cases max r mode s
  | accepted =>
    rw [acceptCandidate_eq]
    exact .inl rfl
  | updated present st seq now =>
    obtain ⟨⟨-, -, -, logs, -⟩, -⟩ :=
      updatePrediction_frame present st seq (clock s.params now) { s with timeMs := clock s.params now }
    exact .inl logs

/-- A stored entry survives every effect but that of RST (R28 (c)). -/
theorem Effect.keepsEntry {s t : State} {i : Instr} (h : Effect s i t) (notRst : i ≠ .rst) {id seq : U32} {x : TempSet}
    (stored : s.logs.read id seq = some x) : t.logs.read id seq = some x := by
  rcases h.logs_cases notRst with logs | ⟨seq', temps, logs⟩
  · rw [logs, stored]
  · rw [logs]
    exact appendPoint_read_stored _ _ _ _ _ _ stored

/-- Settles O55: an entry survives every effect but that of RST, and RST runs only when it is the command presented. -/
theorem logEntriesArePermanent : Obligations.LogEntriesArePermanent := by
  intro s t id seq x h notRst stored
  refine step_preserves (P := fun u => u.logs.read id seq = some x) (fun _ _ _ _ h => h) h stored ?_
  intro i u v runs _ hu effect
  refine effect.keepsEntry ?_ hu
  rintro rfl
  rcases runs with h | h | ⟨bytes, rest, agenda, fetched⟩
  · cases h
  · cases h
  · exact notRst bytes rest agenda fetched

/-- Every effect keeps the canonical form of the log store (R28). -/
theorem Effect.keepsLogStoreInv {s t : State} {i : Instr} (h : Effect s i t) (wf : LogStoreInv s) : LogStoreInv t := by
  by_cases rst : i = .rst
  · subst rst
    cases h with
    | unchanged => exact wf
    | timeOnly operand => cases operand
    | reset => exact (afterReset_hasResetValues s).invariants.2.1
  · rcases h.logs_cases rst with logs | ⟨seq, temps, logs⟩
    · rwa [LogStoreInv, logs]
    · rw [LogStoreInv, logs]
      exact appendPoint_wf _ _ _ wf

/-! ### The outstanding request -/

/-- The upper bound of a request spans at most MAX_LOG_REQUEST records from `m` on (R186). -/
theorem capRequest_spans (p : Params) (m max : U32) (hp : 0 < p.consts.maxLogRequest) (h : m.toNat ≤ max.toNat) :
    m.toNat ≤ (capRequest p m max).toNat ∧ (capRequest p m max).toNat - m.toNat < p.consts.maxLogRequest := by
  have hmax := max.isLt
  unfold capRequest
  split
  · rw [BitVec.toNat_ofNat, Nat.mod_eq_of_lt (by omega)]
    omega
  · omega

/-- A flag that is set after a conditional clear was set before it. -/
theorem set_of_cleared_if {c : Prop} [Decidable c] {flag : Bool} (h : (if c then false else flag) = true) :
    flag = true := by
  split at h
  · cases h
  · exact h

/-- Every effect keeps the bound on the outstanding request: only a request that LSTAT emits sets `req_out`, and it emits one
only from a missing number up to a capped bound (R186, R187). -/
theorem Effect.keepsRequestInv {s t : State} {i : Instr} (h : Effect s i t) (consts : ConstInv s) (request : RequestInv s) :
    RequestInv t := by
  cases h with
  | unchanged | timeOnly | pending | ticked | watchdogFired => exact request
  | reset => simp [RequestInv, (afterReset_hasResetValues s).2.2.2.1]
  | disconnect | covered => simp [RequestInv]
  | session | logFrame => exact fun out => request (set_of_cleared_if out)
  | requested min max r mode m gap =>
    obtain ⟨-, le, -⟩ := firstMissing_some _ _ _ _ gap
    exact fun _ => capRequest_spans s.params m max (by rw [consts]; decide) le
  | accepted =>
    rw [acceptCandidate_eq]
    exact request
  | updated present st seq now =>
    obtain ⟨⟨-, -, -, -, out, min, max, -⟩, -, ⟨params, -⟩, -⟩ :=
      updatePrediction_frame present st seq (clock s.params now) { s with timeMs := clock s.params now }
    rwa [RequestInv, out, min, max, params]

/-- Settles O56: the effects keep both invariants, and the constants with them. -/
theorem stepKeepsLogInvariants : Obligations.StepKeepsLogInvariants := by
  intro s t consts wf request h
  have kept : ConstInv t ∧ LogStoreInv t ∧ RequestInv t := by
    refine step_preserves (P := fun u => ConstInv u ∧ LogStoreInv u ∧ RequestInv u) (fun _ _ _ _ h => h) h
      ⟨consts, wf, request⟩ ?_
    rintro i u v - - ⟨consts, wf, request⟩ effect
    exact ⟨effect.keepsConstInv consts, effect.keepsLogStoreInv wf, effect.keepsRequestInv consts request⟩
  exact kept.2

end Sys2Proof.Machine
end

section
/-! PROOFS. The SMOOTH unit, the time and the publications: what an update makes of each invariant, then every effect. -/

namespace Sys2Proof.Machine

/-! ### The countdown (R235 to R239) -/

/-- Rounding moves up by at most one step (R237). -/
theorem round15_le (p : Params) (n : Nat) : round15 p n ≤ n + p.consts.lowresStepS := by
  unfold round15
  simp only
  split <;> omega

/-- The countdown of a whole number of seconds displays these seconds (R236). -/
theorem disp_seconds (secs : Nat) (h : secs < 2 ^ 32) : disp (1000 * secs) = BitVec.ofNat 32 secs := by
  unfold disp
  split
  · have zero : secs = 0 := by omega
    rw [zero]
  · have whole : ((1000 * secs : Int).toNat / 1000) = secs := by omega
    rw [whole, Nat.min_eq_min, Nat.min_eq_left (by omega)]

/-- The low-resolution regime displays `current_ms`: a new rounded display is written to both, and below the cap it fits the
register; a kept one was the display before (R238, R41 (b)). -/
theorem lowRes_displays (ps seq : U32) (s : State) (consts : ConstInv s) (display : DisplayInv s)
    (capped : ps.toNat ≤ 14400) : (lowRes ps seq s).1 = disp (lowRes ps seq s).2.currentMs := by
  rcases lowRes_cases ps seq s with new | ⟨hprev, kept⟩
  · have rounded : round15 s.params ps.toNat ≤ ps.toNat + 15 := by
      have := round15_le s.params ps.toNat
      rwa [consts] at this
    rw [new, wrapLin_of_table _ _ consts (by omega) (by omega), disp_seconds _ (by omega)]
  · obtain ⟨valid, secsValid⟩ := (havePrev_iff s).1 hprev
    rw [kept]
    exact display valid secsValid

/-- The countdown that a status shows is the display of `current_ms` (R41 (b)). -/
theorem secondsRemaining_displays (st : PredState) (ps seq secs : U32) (s : State) (consts : ConstInv s)
    (display : DisplayInv s) (shown : (secondsRemaining st ps seq s).1 = some secs) :
    secs = disp (secondsRemaining st ps seq s).2.2.currentMs := by
  unfold secondsRemaining at shown ⊢
  by_cases hidden : st ≠ .predicting ∨ ps.toNat > s.params.consts.maxPredS
  · simp [if_pos hidden] at shown
  rw [if_neg hidden] at shown ⊢
  by_cases low : ps.toNat > s.params.consts.lowresCutoffS
  · rw [if_pos low] at shown ⊢
    rw [consts] at hidden
    have capped : ps.toNat ≤ 14400 := Nat.not_lt.1 fun h => hidden (.inr h)
    rw [← Option.some.inj shown]
    exact lowRes_displays ps seq s consts display capped
  · rw [if_neg low] at shown ⊢
    rw [← Option.some.inj shown]
    exact (highRes_spec ps s).1

/-- The countdown leaves both linearization registers in LIN_W bits: every write wraps (R37). -/
theorem secondsRemaining_keepsWidthInv (st : PredState) (ps seq : U32) (s : State) (width : WidthInv s) :
    WidthInv (secondsRemaining st ps seq s).2.2 := by
  obtain ⟨current, step⟩ := width
  unfold secondsRemaining
  split
  · exact ⟨current, step⟩
  split
  · rcases lowRes_cases ps seq s with new | ⟨-, kept⟩
    · simp [new, WidthInv, step]
    · simp [kept, WidthInv, current, step]
  · unfold highRes
    simp only
    split <;> simp [WidthInv, current]

/-! ### An update (R232, R234) -/

section Update

variable (present : Bool) (st : PredictionStatus) (seq : U32) (now : Nat) (s : State)

/-- An update with a status: the countdown, then the information, then the timers. -/
theorem updatePrediction_present :
    updatePrediction true st seq now s =
      let r := secondsRemaining (predStateOfCode st.state) st.predSecs seq { s with tickerArmed := false }
      armTimers r.2.1 seq now (storeInfo st r.1 r.2.2) := rfl

/-- An update with an absent status. -/
theorem updatePrediction_absent :
    updatePrediction false st seq now s = armTimers false seq now (storeAbsent { s with tickerArmed := false }) := rfl

/-- An update publishes the previous information it leaves, absent when it leaves none (R242). -/
theorem updatePrediction_pub :
    (updatePrediction present st seq now s).pub = s.pub ++
      [if (updatePrediction present st seq now s).prevInfoValid then
        some (updatePrediction present st seq now s).prevInfo else none] := by
  cases present with
  | false => simp [updatePrediction_absent]
  | true =>
    obtain ⟨target, step, current, keeps⟩ :=
      secondsRemaining_keeps (predStateOfCode st.state) st.predSecs seq { s with tickerArmed := false }
    simp [updatePrediction_present, storeInfo_pub, keeps]

/-- An update starts the ticker only together with a displayed high-resolution countdown (R41 (a), R235). -/
theorem updatePrediction_tickerInv : TickerInv (updatePrediction present st seq now s) := by
  cases present with
  | false => simp [TickerInv, updatePrediction_absent]
  | true =>
    intro armed
    obtain ⟨predicting, shown⟩ := secondsRemaining_start _ _ _ _ armed
    simpa [updatePrediction_present, storeInfo_prevInfo, predicting] using shown

/-- An update leaves a display of `current_ms` (R41 (b)). -/
theorem updatePrediction_displayInv (consts : ConstInv s) (display : DisplayInv s) :
    DisplayInv (updatePrediction present st seq now s) := by
  cases present with
  | false => simp [DisplayInv, updatePrediction_absent]
  | true =>
    simp only [DisplayInv, updatePrediction_present, armTimers_prevInfoValid, storeInfo_prevInfoValid, armTimers_prevInfo,
      storeInfo_prevInfo, armTimers_currentMs, storeInfo_currentMs]
    intro _ shown
    obtain ⟨secs, shown⟩ := Option.isSome_iff_exists.1 shown
    rw [shown]
    exact secondsRemaining_displays _ _ _ secs { s with tickerArmed := false } consts display shown

/-- An update keeps the SMOOTH invariants (R41): it sets the sequence number and, where it arms the ticker, both
deadlines. -/
theorem updatePrediction_smoothInv (consts : ConstInv s) (smooth : SmoothInv s) :
    SmoothInv (updatePrediction present st seq now s) := by
  obtain ⟨-, display, -, -⟩ := smooth
  obtain ⟨seqValid, -, -, -, wdogDeadline, tickerDeadline⟩ := updatePrediction_timers present st seq now s
  obtain ⟨-, -, ⟨params, -⟩, -⟩ := updatePrediction_frame present st seq now s
  refine ⟨updatePrediction_tickerInv present st seq now s,
    updatePrediction_displayInv present st seq now s consts display, fun armed _ => ?_, fun _ => seqValid⟩
  rw [wdogDeadline, tickerDeadline armed, params]
  omega

/-- An update leaves both linearization registers in LIN_W bits (R37). -/
theorem updatePrediction_widthInv (width : WidthInv s) : WidthInv (updatePrediction present st seq now s) := by
  cases present with
  | false => simpa [WidthInv, updatePrediction_absent] using width
  | true =>
    simpa [WidthInv, updatePrediction_present] using
      secondsRemaining_keepsWidthInv (predStateOfCode st.state) st.predSecs seq { s with tickerArmed := false } width

end Update

/-! ### The SMOOTH invariants (R41) -/

/-- Every effect keeps R41 (a): DISC and the watchdog stop the ticker with the watchdog, and an update that arms it displays
a countdown. -/
theorem Effect.keepsTickerInv {s t : State} {i : Instr} (h : Effect s i t) (ticker : TickerInv s) : TickerInv t := by
  cases h with
  | unchanged | timeOnly | session | logFrame | covered | pending | requested | ticked => exact ticker
  | reset =>
    obtain ⟨-, -, -, -, ⟨ticker, -⟩, -⟩ := (afterReset_hasResetValues s).invariants
    exact ticker
  | disconnect | watchdogFired => simp [TickerInv]
  | accepted =>
    rw [acceptCandidate_eq]
    exact ticker
  | updated present st seq now => exact updatePrediction_tickerInv present st seq _ _

/-- Every effect keeps the invariants of R41. A tick displays the countdown it reduced, and moves a deadline that was not
past the watchdog's by one period (R243, R244). -/
theorem Effect.keepsSmoothInv {s t : State} {i : Instr} (h : Effect s i t) (consts : ConstInv s) (smooth : SmoothInv s) :
    SmoothInv t := by
  have keptTicker := h.keepsTickerInv smooth.1
  cases h with
  | unchanged | timeOnly | session | logFrame | covered | pending | requested => exact smooth
  | reset =>
    obtain ⟨-, -, -, -, smooth, -⟩ := (afterReset_hasResetValues s).invariants
    exact smooth
  | disconnect | watchdogFired =>
    obtain ⟨-, display, -, seqValid⟩ := smooth
    exact ⟨keptTicker, display, fun armed => (Bool.false_ne_true armed).elim, seqValid⟩
  | accepted =>
    rw [acceptCandidate_eq]
    exact smooth
  | updated present st seq now =>
    exact updatePrediction_smoothInv present st seq _ { s with timeMs := clock s.params now } consts smooth
  | ticked enabled =>
    obtain ⟨-, -, -, seqValid⟩ := smooth
    obtain ⟨-, notPast⟩ := (tickEnabled_iff s).1 enabled
    exact ⟨keptTicker, fun _ _ => rfl, fun _ _ => Nat.add_le_add_right notPast _, seqValid⟩

/-- Settles O57: the effects keep the four invariants, and the constants with them. -/
theorem stepKeepsSmoothInvariants : Obligations.StepKeepsSmoothInvariants := by
  intro s t consts smooth h
  have kept : ConstInv t ∧ SmoothInv t := by
    refine step_preserves (P := fun u => ConstInv u ∧ SmoothInv u) (fun _ _ _ _ h => h) h ⟨consts, smooth⟩ ?_
    rintro i u v - - ⟨consts, smooth⟩ effect
    exact ⟨effect.keepsConstInv consts, effect.keepsSmoothInv consts smooth⟩
  exact kept.2

/-! ### Publications (R45) -/

/-- The last event is the previous information when that is what was just published. -/
theorem pubInv_of_published {before : List (Option PredictionInfo)} {t : State}
    (h : t.pub = before ++ [if t.prevInfoValid then some t.prevInfo else none]) : PubInv t := by
  intro e last
  rw [h, List.getLast?_concat] at last
  exact (Option.some.inj last).symm

/-- Every effect keeps the last event on PUB equal to the previous information: a tick publishes it too, and runs only while
there is one, by R41 (a). -/
theorem Effect.keepsPubInv {s t : State} {i : Instr} (h : Effect s i t) (ticker : TickerInv s) (published : PubInv s) :
    PubInv t := by
  cases h with
  | unchanged | timeOnly | disconnect | session | logFrame | covered | pending | requested | watchdogFired =>
    exact published
  | reset =>
    obtain ⟨-, -, -, -, -, -, published⟩ := (afterReset_hasResetValues s).invariants
    exact published
  | accepted =>
    rw [acceptCandidate_eq]
    exact published
  | updated present st seq now => exact pubInv_of_published (updatePrediction_pub present st seq _ _)
  | ticked enabled =>
    obtain ⟨armed, -⟩ := (tickEnabled_iff s).1 enabled
    obtain ⟨-, valid, -⟩ := ticker armed
    exact pubInv_of_published (before := s.pub) (by simp [valid])

/-- Settles O59: the effects keep R45 together with R41 (a). -/
theorem stepKeepsPublication : Obligations.StepKeepsPublication := by
  intro s t ticker published h
  refine step_preserves (P := fun u => TickerInv u ∧ PubInv u) (fun _ _ _ _ h => h) h ⟨ticker, published⟩ ?_
  rintro i u v - - ⟨ticker, published⟩ effect
  exact ⟨effect.keepsTickerInv ticker, effect.keepsPubInv ticker published⟩

/-! ### Time (R33, R37, R287) -/

/-- Every effect keeps R33: an accepted candidate carries the time, and the time does not run backwards. -/
theorem Effect.keepsArbInv {s t : State} {i : Instr} (h : Effect s i t) (arb : ArbInv s) : ArbInv t := by
  cases h with
  | unchanged | disconnect | session | logFrame | covered | pending | requested => exact arb
  | timeOnly _ forward => exact fun valid => (arb valid).trans forward
  | reset =>
    obtain ⟨-, -, -, arb, -⟩ := (afterReset_hasResetValues s).invariants
    exact arb
  | accepted =>
    rw [acceptCandidate_eq]
    exact fun _ => Nat.le_refl _
  | updated present st seq now forward =>
    obtain ⟨-, ⟨valid, -, ts, -⟩, -, time, -⟩ :=
      updatePrediction_frame present st seq (clock s.params now) { s with timeMs := clock s.params now }
    rw [ArbInv, valid, ts, time]
    exact fun valid => (arb valid).trans forward
  | ticked | watchdogFired => exact fun valid => (arb valid).trans (Nat.le_max_left _ _)

/-- Every effect leaves the linearization registers in LIN_W bits (R37). -/
theorem Effect.keepsWidthInv {s t : State} {i : Instr} (h : Effect s i t) (width : WidthInv s) : WidthInv t := by
  cases h with
  | unchanged | timeOnly | disconnect | session | logFrame | covered | pending | requested | watchdogFired => exact width
  | reset => exact (afterReset_hasResetValues s).invariants.1
  | accepted =>
    rw [acceptCandidate_eq]
    exact width
  | updated present st seq now =>
    exact updatePrediction_widthInv present st seq _ { s with timeMs := clock s.params now } width
  | ticked => exact ⟨wrapLin_wrapLin _ _, width.2⟩

/-- With no timer due before it, the time moves up to no armed deadline (R287 (b)). -/
theorem TimeInv.advance {s : State} {now : Nat} (time : TimeInv s) (due : dueTimer (some now) s = none) :
    TimeInv { s with timeMs := now } := by
  obtain ⟨-, -, stale⟩ := time
  obtain ⟨ticker, wdog⟩ := (dueTimer_eq_none now s).1 due
  exact ⟨ticker, wdog, stale⟩

/-- An update arms deadlines that do not lie before its time, and clears the stale flag (R240). -/
theorem updatePrediction_timeInv (present : Bool) (st : PredictionStatus) (seq : U32) (s : State) :
    TimeInv (updatePrediction present st seq s.timeMs s) := by
  obtain ⟨-, -, fresh, -, wdogDeadline, tickerDeadline⟩ := updatePrediction_timers present st seq s.timeMs s
  obtain ⟨-, -, -, time, -⟩ := updatePrediction_frame present st seq s.timeMs s
  refine ⟨fun armed => ?_, fun _ => ?_, fun stale => ?_⟩
  · rw [time, tickerDeadline armed]
    omega
  · rw [time, wdogDeadline]
    omega
  · rw [fresh] at stale
    cases stale

/-- Every effect keeps the armed deadlines at or after the time, when no timer was due before the operation's `now`: a timer
fires at its own deadline, and the other one's is not earlier (R243, R287). -/
theorem Effect.keepsTimeInv {s t : State} {i : Instr} (h : Effect s i t)
    (due : dueTimer (operandNow s.params i) s = none) (time : TimeInv s) : TimeInv t := by
  cases h with
  | unchanged | session | logFrame | covered | pending | requested => exact time
  | timeOnly operand =>
    rw [operand] at due
    exact time.advance due
  | reset =>
    obtain ⟨-, -, -, -, -, time, -⟩ := (afterReset_hasResetValues s).invariants
    exact time
  | disconnect | watchdogFired => simp [TimeInv]
  | accepted =>
    rw [acceptCandidate_eq]
    exact time.advance due
  | updated present st seq now => exact updatePrediction_timeInv present st seq { s with timeMs := clock s.params now }
  | ticked enabled =>
    obtain ⟨armed, notPast⟩ := (tickEnabled_iff s).1 enabled
    obtain ⟨ticker, -, stale⟩ := time
    have now : (tick s).timeMs = s.tickerDeadline := Nat.max_eq_right (ticker armed)
    refine ⟨fun _ => ?_, fun _ => ?_, stale⟩
    · rw [now]
      exact Nat.le_add_right _ _
    · rw [now]
      exact notPast

/-- Settles O58: the effects keep all three, since no timer is due before what a step runs. -/
theorem stepKeepsTimeInvariants : Obligations.StepKeepsTimeInvariants := by
  intro s t arb width time h
  refine step_preserves (P := fun u => ArbInv u ∧ WidthInv u ∧ TimeInv u) (fun _ _ _ _ h => h) h
    ⟨arb, width, time⟩ ?_
  rintro i u v - due ⟨arb, width, time⟩ effect
  exact ⟨effect.keepsArbInv arb, effect.keepsWidthInv width, effect.keepsTimeInv due time⟩

end Sys2Proof.Machine
end

section
/-! PROOFS. The command encoding: the decoder reads back what the encoder wrote, operand field by operand field, and an opcode
that is none of the host's is answered ILLEGAL before any operand is read. -/

namespace Sys2Proof.Machine

/-! ### Decoding what was encoded (R81, R82) -/

/-- The operand fields of an operation, read under its opcode, give the operation back. The cases are grouped by the fields
that the opcode takes: none, one buffer, scalars and flags, or a record among them. -/
theorem decodeOperands_encodeOperands (i : Instr) (rest : Buffer) (wf : i.wf = true) :
    decodeOperands (opcode i) (encodeOperands i ++ rest) = .ok (i, rest) := by
  cases i with
  | nop | rst | disc | lutd | prd | ptick | pwdog => rfl
  | tdec buf | fsdec buf | adec buf | fparse buf | crc16 buf =>
    have buffer := readBuffer_writeBuffer buf rest wf
    simp [decodeOperands, opcode, encodeOperands, buffer]
  | fbuild mtype payload =>
    have buffer := readBuffer_writeBuffer payload rest wf
    simp [decodeOperands, opcode, encodeOperands, readScalar_writeScalar, buffer]
  | mdec | bdec | hdec | lsess | lmiss | irrd | ppct =>
    simp [decodeOperands, opcode, encodeOperands, readScalar_writeScalar]
  | irqry | iracc => simp [decodeOperands, opcode, encodeOperands, readScalar_writeScalar, readFlag_writeFlag]
  | tenc | lframe => simp [decodeOperands, opcode, encodeOperands, readScalar_writeScalar, readTemps_writeTemps]
  | lstat =>
    simp [decodeOperands, opcode, encodeOperands, readScalar_writeScalar, readTemps_writeTemps, opModeOfCode_code]
  | fsenc => simp [decodeOperands, opcode, encodeOperands, readFoodSafe_writeFoodSafe]
  | pupd =>
    simp [decodeOperands, opcode, encodeOperands, readScalar_writeScalar, readFlag_writeFlag, readStatus_writeStatus]

/-- Settles O50: the opcode byte selects the operation's own readers, and each reads back the field written for it. -/
theorem decodeReadsWhatEncodeWrites : Obligations.DecodeReadsWhatEncodeWrites :=
  decodeOperands_encodeOperands

/-- Bytes that are the command of a well-formed operation, and nothing more, decode to it. -/
theorem decode_of_encode_eq {i : Instr} {bytes : Buffer} (wf : i.wf = true) (command : encode i = bytes) :
    decode bytes = .ok (i, []) := by
  rw [← command, ← List.append_nil (encode i)]
  exact decodeReadsWhatEncodeWrites i [] wf

/-- Settles O51: each sample is the command of the operation it stands for. -/
theorem sampleCommandsDecode : Obligations.SampleCommandsDecode :=
  ⟨decode_of_encode_eq rfl (by decide), decode_of_encode_eq rfl (by decide), decode_of_encode_eq rfl (by decide),
    decode_of_encode_eq rfl (by decide)⟩

/-! ### Opcodes that no host may issue (R92) -/

/-- The opcodes of the host operations of R80. -/
def hostOpcodes : List Nat :=
  [0x00, 0x01, 0x02, 0x10, 0x11, 0x12, 0x13, 0x14, 0x15, 0x16, 0x17, 0x20, 0x21, 0x22, 0x30, 0x31, 0x32, 0x33, 0x34, 0x40,
    0x41, 0x42, 0x50, 0x51, 0x52]

/-- Under any other opcode the decoder reads no operand: it finds one of the two internal events, or no row of R80. -/
theorem decodeOperands_unissuable (op : Byte) (bs : Buffer) (unissuable : op.toNat ∉ hostOpcodes) :
    decodeOperands op bs = .ok (.ptick, bs) ∨ decodeOperands op bs = .ok (.pwdog, bs) ∨
      decodeOperands op bs = .error (.unknownOpcode op) := by
  unfold decodeOperands
  split
  case h_26 => exact .inl rfl
  case h_27 => exact .inr (.inl rfl)
  case h_28 => exact .inr (.inr rfl)
  all_goals exact absurd (by decide) unissuable

/-- Such a command is ILLEGAL whatever bytes follow the opcode. -/
theorem fetchCommand_unissuable (op : Byte) (bs : Buffer) (unissuable : op.toNat ∉ hostOpcodes) :
    fetchCommand (op :: bs) = .illegal := by
  rcases decodeOperands_unissuable op bs unissuable with ptick | pwdog | unknown
  · simp [fetchCommand, decode, ptick, isInternal, opcode]
  · simp [fetchCommand, decode, pwdog, isInternal, opcode]
  · simp [fetchCommand, decode, unknown]

/-- The step that takes up a command answered ILLEGAL. -/
theorem step_of_illegal {s : State} {bytes : Buffer} {rest : List Event} (agenda : s.agenda = .command bytes :: rest)
    (fetched : fetchCommand bytes = .illegal) : step s = .next (answerIllegal (withAgenda rest s)) := by
  simp [step, agenda, fetched]

/-- Settles O49: the fetch finds the command ILLEGAL, and that answer changes no register. -/
theorem unissuableOpcodesAreIllegal : Obligations.UnissuableOpcodesAreIllegal := by
  intro s op operands rest agenda unissuable
  have fetched := fetchCommand_unissuable op operands unissuable
  exact ⟨answerIllegal (withAgenda rest s), step_of_illegal agenda fetched, rfl, onlyAnswers_answerIllegal _⟩

end Sys2Proof.Machine
end

section
/-! PROOFS. Unit CODEC, the TemperatureSet: how an operation with an optional result completes, the lanes as digits of one
little-endian number and as pieces of its bytes, and the round trips of R115. -/

namespace Sys2Proof.Machine

/-! ### Completing with or without a result (R83, R280) -/

/-- Where there is a result, the operation answers OK with it and does nothing else. -/
theorem replyOption_some {α : Type} {f : α → Results} {o : Option α} {a : α} (h : o = some a) (s : State) :
    ∃ t, replyOption f o s = .next t ∧ OnlyAnswers (.ok (f a)) s t :=
  ⟨respond (.ok (f a)) s, by rw [h]; rfl, onlyAnswers_respond _ _⟩

/-- Where there is none, the operation answers ABSENT and does nothing else. -/
theorem replyOption_none {α : Type} {f : α → Results} {o : Option α} (h : o = none) (s : State) :
    ∃ t, replyOption f o s = .next t ∧ OnlyAnswers .absent s t :=
  ⟨respond .absent s, by rw [h]; rfl, onlyAnswers_respond _ _⟩

/-! ### Decoding (R111, R112) -/

theorem decodeTemps_of_short {buf : Buffer} (h : buf.length < 13) : decodeTemps buf = none := if_pos h

theorem decodeTemps_of_long {buf : Buffer} (h : 13 ≤ buf.length) : decodeTemps buf = some (unpackTemps (buf.take 13)) :=
  if_neg (Nat.not_lt.2 h)

/-- Only the first 13 bytes of a decoded buffer are read. -/
theorem decodeTemps_eq_some {buf : Buffer} {ts : TempSet} (h : decodeTemps buf = some ts) :
    unpackTemps (buf.take 13) = ts := by
  rcases Nat.lt_or_ge buf.length 13 with short | long
  · rw [decodeTemps_of_short short] at h
    cases h
  · rw [decodeTemps_of_long long] at h
    exact Option.some.inj h

/-- Settles O5: the length decides the answer, and a lane is the digit that `packedTemp_toNat` gives. -/
theorem tdecReadsFields : Obligations.TdecReadsFields := by
  intro buf s
  refine ⟨fun short => replyOption_none (decodeTemps_of_short short) s, fun long => ?_⟩
  obtain ⟨t, completes, answers⟩ := replyOption_some (f := .temps) (decodeTemps_of_long long) s
  refine ⟨t, _, completes, answers, ?_⟩
  simp [unpackTemps, packedTemp_toNat]

/-! ### Lanes by bytes (R111) -/

/-- A field cut in two at bit `a`: the lower part, and the upper part in its place (R62). -/
theorem field_split (buf : Buffer) (o a b : Nat) : field buf o (a + b) = field buf o a ||| field buf (o + a) b <<< a := by
  apply Nat.eq_of_testBit_eq
  intro j
  simp only [Nat.testBit_or, Nat.testBit_shiftLeft, testBit_field]
  rcases Nat.lt_or_ge j a with low | high
  · simp [low, Nat.lt_add_right b low]
  · have bit : o + a + (j - a) = o + j := by omega
    have inside : j - a < b ↔ j < a + b := by omega
    simp [high, bit, inside, Nat.not_lt.2 high]

/-- A byte is the field of its 8 bits. -/
theorem byteAt_eq_field (buf : Buffer) (k : Nat) : (byteAt buf k).toNat = field buf (8 * k) 8 := by
  rw [byteAt_toNat, field_eq, pow_mul]
  rfl

/-- A byte without its `r` low bits. -/
theorem byteAt_shiftRight (buf : Buffer) (k r : Nat) (h : r ≤ 8) :
    (byteAt buf k).toNat >>> r = field buf (8 * k + r) (8 - r) := by
  apply Nat.eq_of_testBit_eq
  intro j
  have inside : r + j < 8 ↔ j < 8 - r := by omega
  simp [byteAt_eq_field, testBit_field, inside, Nat.add_assoc]

/-- The `m` low bits of a byte. -/
theorem byteAt_and_mask (buf : Buffer) (k m : Nat) (h : m ≤ 8) :
    (byteAt buf k).toNat &&& (2 ^ m - 1) = field buf (8 * k) m := by
  rw [byteAt_eq_field, Nat.and_two_pow_sub_one_eq_mod, field, field, Nat.mod_mod_of_dvd _ (pow_dvd_pow 2 h)]

/-- A lane that starts at bit `r` of byte `k` and ends with the `m` low bits of the next byte. -/
theorem field_two_bytes (buf : Buffer) (o k r m : Nat) (start : o = 8 * k + r) (width : 13 = 8 - r + m)
    (hr : r ≤ 8) (hm : m ≤ 8) :
    field buf o 13 = (byteAt buf k).toNat >>> r ||| ((byteAt buf (k + 1)).toNat &&& (2 ^ m - 1)) <<< (8 - r) := by
  rw [byteAt_shiftRight buf k r hr, byteAt_and_mask buf (k + 1) m hm, width, field_split, start,
    show 8 * k + r + (8 - r) = 8 * (k + 1) by omega]

/-- A lane that starts at bit `r` of byte `k`, takes the next byte whole, and ends with the `m` low bits of the one after. -/
theorem field_three_bytes (buf : Buffer) (o k r m : Nat) (start : o = 8 * k + r) (width : 13 = 8 - r + 8 + m)
    (hr : r ≤ 8) (hm : m ≤ 8) :
    field buf o 13 = (byteAt buf k).toNat >>> r ||| (byteAt buf (k + 1)).toNat <<< (8 - r) |||
      ((byteAt buf (k + 2)).toNat &&& (2 ^ m - 1)) <<< (16 - r) := by
  rw [byteAt_shiftRight buf k r hr, byteAt_eq_field, byteAt_and_mask buf (k + 2) m hm, width, field_split, field_split,
    start, show 8 * k + r + (8 - r) = 8 * (k + 1) by omega, show 8 * k + r + (8 - r + 8) = 8 * (k + 2) by omega,
    show 8 - r + 8 = 16 - r by omega]

/-- A lane is the field of its 13 bits (R111). -/
theorem packedTemp_eq_field (buf : Buffer) (i : Nat) : (packedTemp buf i).toNat = field buf (13 * i) 13 := by
  rw [packedTemp_toNat, field_eq]
  rfl

/-- Settles O6: `field_two_bytes` or `field_three_bytes` at the byte and bit where each lane starts. A mask of all 8 bits and
a shift by 0, which the table does not write, change nothing. -/
theorem temperatureLanesByByte : Obligations.TemperatureLanesByByte := by
  intro buf ts decoded b
  have bytes (k : Nat) (h : k < 13) : b k = (byteAt (buf.take 13) k).toNat := by simp [b, byteAt_take _ _ _ h]
  have last : b 12 = (byteAt (buf.take 13) 12).toNat &&& (2 ^ 8 - 1) := by
    rw [bytes 12 (by decide), byteAt_and_mask _ _ _ (le_refl 8), byteAt_eq_field]
  obtain rfl := decodeTemps_eq_some decoded
  simp only [unpackTemps, packedTemp_eq_field]
  refine ⟨?_, ?_, ?_, ?_, ?_, ?_, ?_, ?_⟩
  · simpa [bytes] using field_two_bytes (buf.take 13) 0 0 0 5 rfl rfl (by decide) (by decide)
  · simpa [bytes] using field_three_bytes (buf.take 13) 13 1 5 2 rfl rfl (by decide) (by decide)
  · simpa [bytes] using field_two_bytes (buf.take 13) 26 3 2 7 rfl rfl (by decide) (by decide)
  · simpa [bytes] using field_three_bytes (buf.take 13) 39 4 7 4 rfl rfl (by decide) (by decide)
  · simpa [bytes] using field_three_bytes (buf.take 13) 52 6 4 1 rfl rfl (by decide) (by decide)
  · simpa [bytes] using field_two_bytes (buf.take 13) 65 8 1 6 rfl rfl (by decide) (by decide)
  · simpa [bytes] using field_three_bytes (buf.take 13) 78 9 6 3 rfl rfl (by decide) (by decide)
  · simpa [last, bytes] using field_two_bytes (buf.take 13) 91 11 3 8 rfl rfl (by decide) (by decide)

/-! ### Encoding (R113) -/

/-- Every code is below 8192, so it has room in its 13 bits (R21). -/
theorem codes_lt (t : TempSet) :
    t.t0.toNat < 2 ^ 13 ∧ t.t1.toNat < 2 ^ 13 ∧ t.t2.toNat < 2 ^ 13 ∧ t.t3.toNat < 2 ^ 13 ∧ t.t4.toNat < 2 ^ 13 ∧
      t.t5.toNat < 2 ^ 13 ∧ t.t6.toNat < 2 ^ 13 ∧ t.t7.toNat < 2 ^ 13 :=
  ⟨t.t0.isLt, t.t1.isLt, t.t2.isLt, t.t3.isLt, t.t4.isLt, t.t5.isLt, t.t6.isLt, t.t7.isLt⟩

/-- Each code lies above all before it, so inserting is adding. -/
theorem packTemps_eq_sum (t : TempSet) :
    packTemps t = t.t0.toNat + 2 ^ 13 * t.t1.toNat + 2 ^ 26 * t.t2.toNat + 2 ^ 39 * t.t3.toNat + 2 ^ 52 * t.t4.toNat +
      2 ^ 65 * t.t5.toNat + 2 ^ 78 * t.t6.toNat + 2 ^ 91 * t.t7.toNat := by
  have code (r : RawCode) : r.toNat % 2 ^ 13 = r.toNat := Nat.mod_eq_of_lt r.isLt
  obtain ⟨h0, h1, h2, h3, h4, h5, h6, h7⟩ := codes_lt t
  simp (disch := omega) only [packTemps, insertField_eq_add, code]
  omega

/-- The value of eight codes fits the 13 bytes. -/
theorem packTemps_lt (t : TempSet) : packTemps t < 256 ^ 13 := by
  rw [packTemps_eq_sum]
  obtain ⟨h0, h1, h2, h3, h4, h5, h6, h7⟩ := codes_lt t
  omega

@[simp] theorem encodeTemps_length (t : TempSet) : (encodeTemps t).length = 13 := leBytes_length _ _

/-- The 13 bytes hold the value whole. -/
theorem leNat_encodeTemps (t : TempSet) : leNat (encodeTemps t) = packTemps t := by
  rw [encodeTemps, leNat_leBytes, Nat.mod_eq_of_lt (packTemps_lt t)]

/-- Settles O7: masking is the remainder modulo 8192. -/
theorem tencPacksMaskedCodes : Obligations.TencPacksMaskedCodes := by
  intro r s
  refine ⟨_, encodeTemps (maskTemps r), rfl, onlyAnswers_respond _ _, encodeTemps_length _, ?_⟩
  rw [leNat_encodeTemps, packTemps_eq_sum]
  simp [maskTemps, maskCode]

/-! ### Round trips (R115) -/

/-- Each lane of the packed value is the code put there. -/
theorem unpackTemps_encodeTemps (t : TempSet) : unpackTemps (encodeTemps t) = t := by
  obtain ⟨h0, h1, h2, h3, h4, h5, h6, h7⟩ := codes_lt t
  have lane (i o : Nat) (r : RawCode) (place : 13 * i = o) (digit : packTemps t / 2 ^ o % 8192 = r.toNat) :
      packedTemp (encodeTemps t) i = r := by
    apply BitVec.eq_of_toNat_eq
    rw [packedTemp_toNat, leNat_encodeTemps, place, digit]
  rw [packTemps_eq_sum] at lane
  rw [unpackTemps, lane 0 0 t.t0 rfl (by omega), lane 1 13 t.t1 rfl (by omega), lane 2 26 t.t2 rfl (by omega),
    lane 3 39 t.t3 rfl (by omega), lane 4 52 t.t4 rfl (by omega), lane 5 65 t.t5 rfl (by omega),
    lane 6 78 t.t6 rfl (by omega), lane 7 91 t.t7 rfl (by omega)]

/-- A 13-byte string is the packing of its lanes: 13 bytes are exactly eight codes. -/
theorem packTemps_unpackTemps (b : Buffer) (h : b.length = 13) : packTemps (unpackTemps b) = leNat b := by
  have bound := leNat_lt b
  rw [h] at bound
  rw [packTemps_eq_sum]
  simp only [unpackTemps, packedTemp_toNat]
  omega

/-- The value of a raw code that was computed for a value is that value, for any step and offset (R114). -/
theorem tempCenti_of_tempRaw {p : Params} {c : Int} {r : RawCode} (h : tempRaw p c = some r) : tempCenti p r = c := by
  simp only [tempRaw, Option.ite_none_right_eq_some, Option.some.injEq] at h
  obtain ⟨⟨whole, nonneg, fits⟩, rfl⟩ := h
  have code : ((BitVec.ofInt 13 ((c - p.tempOffsetCenti) / p.consts.tempLsbCenti)).toNat : Int) =
      (c - p.tempOffsetCenti) / p.consts.tempLsbCenti := by
    rw [BitVec.toNat_ofInt]
    omega
  rw [tempCenti, code, Int.mul_ediv_cancel' (Int.dvd_of_emod_eq_zero whole)]
  omega

/-- Every raw code is the code of its value (R114). -/
theorem tempRaw_tempCenti {p : Params} (step : 0 < p.consts.tempLsbCenti) (r : RawCode) :
    tempRaw p (tempCenti p r) = some r := by
  have bound := r.isLt
  have distance : tempCenti p r - p.tempOffsetCenti = p.consts.tempLsbCenti * r.toNat := by rw [tempCenti]; omega
  have quotient : (p.consts.tempLsbCenti : Int) * r.toNat / p.consts.tempLsbCenti = r.toNat :=
    Int.mul_ediv_cancel_left _ (by omega)
  simp only [tempRaw, distance, Int.mul_emod_right]
  rw [quotient, if_pos ⟨trivial, by omega, by omega⟩, BitVec.ofInt_natCast, BitVec.ofNat_toNat, BitVec.setWidth_eq]

/-- With steps of 5 centi, the representable values are those of the raw codes (R114). -/
theorem tempRaw_isSome_iff {p : Params} (table : p.consts = tableConsts) (c : Int) :
    (tempRaw p c).isSome = true ↔ ∃ r : RawCode, c = 5 * (r.toNat : Int) + p.tempOffsetCenti := by
  have value (r : RawCode) : tempCenti p r = 5 * (r.toNat : Int) + p.tempOffsetCenti := by rw [tempCenti, table]; rfl
  have step : 0 < p.consts.tempLsbCenti := by rw [table]; decide
  simp only [← value, Option.isSome_iff_exists]
  constructor
  · rintro ⟨r, h⟩
    exact ⟨r, (tempCenti_of_tempRaw h).symm⟩
  · rintro ⟨r, rfl⟩
    exact ⟨r, tempRaw_tempCenti step r⟩

/-- Settles O8: the two directions of packing, and the two of raw codes. -/
theorem temperatureRoundTrips : Obligations.TemperatureRoundTrips := by
  refine ⟨fun t => ?decodeEncode, fun b len => ?encodeDecode, fun p table c => (tempRaw_isSome_iff table c).symm,
    fun p c r => tempCenti_of_tempRaw⟩
  case decodeEncode =>
    have len := encodeTemps_length t
    rw [decodeTemps_of_long (Nat.le_of_eq len.symm), List.take_of_length_le (Nat.le_of_eq len), unpackTemps_encodeTemps]
  case encodeDecode =>
    have packed : encodeTemps (unpackTemps b) = b := by
      rw [encodeTemps, packTemps_unpackTemps b len, ← len, leBytes_leNat]
    rw [decodeTemps_of_long (Nat.le_of_eq len.symm), List.take_of_length_le (Nat.le_of_eq len), Option.map_some, packed]

end Sys2Proof.Machine
end

section
/-! PROOFS. Unit CODEC, fields at the places of a layout: what a number built by inserting fields into places that share no
bit holds, what the layouts of D11 to D14 give, and the packed bytes. -/

namespace Sys2Proof.Machine

/-! ### Numbers built from fields (R62, R63) -/

/-- The model's fields of a byte and of a buffer are the bits at a place of their number (R6, R62). -/
theorem byteField_eq_bitsAt (b : Byte) (f : FieldPlace) : byteField b f = bitsAt b.toNat f := byteField_eq b f

theorem fieldAt_eq_bitsAt (buf : Buffer) (f : FieldPlace) : fieldAt buf f = bitsAt (leNat buf) f := fieldAt_eq buf f

/-- Bit `j` of a string belongs to the field. -/
abbrev Covers (f : FieldPlace) (j : Nat) : Prop := f.lo ≤ j ∧ j < f.lo + f.width

/-- Every value put into its place, one after the other, as the encoders do. -/
def insertFields (V : Nat) (fs : List (FieldPlace × Nat)) : Nat := fs.foldl (fun V x => insertAt V x.1 x.2) V

/-- A bit of the result was set before, or comes from a field that covers it. -/
theorem testBit_insertFields (V : Nat) (fs : List (FieldPlace × Nat)) (j : Nat) :
    (insertFields V fs).testBit j = true ↔
      V.testBit j = true ∨ ∃ x ∈ fs, Covers x.1 j ∧ x.2.testBit (j - x.1.lo) = true := by
  induction fs generalizing V with
  | nil => simp [insertFields]
  | cons x fs ih =>
    have covered : (j - x.1.lo < x.1.width ∧ x.1.lo ≤ j) ↔ Covers x.1 j := by
      simp only [Covers]
      omega
    rw [insertFields, List.foldl_cons, ← insertFields, ih, testBit_insertAt]
    simp only [List.exists_mem_cons_iff, Bool.or_eq_true, Bool.and_eq_true, decide_eq_true_eq, ← covered]
    tauto

/-- A bit of the field of a number is a bit of the number. -/
theorem testBit_bitsAt (V : Nat) (f : FieldPlace) (j : Nat) :
    (bitsAt V f).testBit j = (decide (j < f.width) && V.testBit (f.lo + j)) := by
  rw [bitsAt, Nat.testBit_mod_two_pow, Nat.testBit_div_two_pow, Nat.add_comm]

theorem bitsAt_lt (V : Nat) (f : FieldPlace) : bitsAt V f < 2 ^ f.width := Nat.mod_lt _ (Nat.two_pow_pos _)

/-- Of fields that share no bit, at most one covers a given bit. -/
theorem eq_of_covers {fs : List (FieldPlace × Nat)} (apart : (fs.map Prod.fst).Pairwise fun a b => a.apart b = true)
    {x y : FieldPlace × Nat} (hx : x ∈ fs) (hy : y ∈ fs) {j : Nat} (cx : Covers x.1 j)
    (cy : Covers y.1 j) : x = y := by
  induction fs with
  | nil => cases hx
  | cons z fs ih =>
    rw [List.map_cons, List.pairwise_cons] at apart
    obtain ⟨headApart, tailApart⟩ := apart
    have notBoth {w : FieldPlace × Nat} (hw : w ∈ fs) (cw : Covers w.1 j) : ¬ Covers z.1 j := by
      have disjoint := headApart w.1 (List.mem_map_of_mem hw)
      simp only [FieldPlace.apart, Bool.or_eq_true, decide_eq_true_eq] at disjoint
      simp only [Covers] at cw ⊢
      omega
    rcases List.mem_cons.1 hx with xHead | xTail <;> rcases List.mem_cons.1 hy with yHead | yTail
    · rw [xHead, yHead]
    · exact absurd (xHead ▸ cx) (notBoth yTail cy)
    · exact absurd (yHead ▸ cy) (notBoth xTail cx)
    · exact ih tailApart xTail yTail

/-- Each field of the result is the value put there, without the bits its place has no room for. -/
theorem bitsAt_insertFields {fs : List (FieldPlace × Nat)}
    (apart : (fs.map Prod.fst).Pairwise fun a b => a.apart b = true) {x : FieldPlace × Nat} (hx : x ∈ fs) :
    bitsAt (insertFields 0 fs) x.1 = x.2 % 2 ^ x.1.width := by
  apply Nat.eq_of_testBit_eq
  intro j
  rw [testBit_bitsAt, Nat.testBit_mod_two_pow, Bool.eq_iff_iff]
  simp only [Bool.and_eq_true, decide_eq_true_eq, testBit_insertFields, Nat.zero_testBit, Bool.false_eq_true, false_or]
  refine and_congr_right fun inside => ?_
  have covers : Covers x.1 (x.1.lo + j) := ⟨by omega, by omega⟩
  have bit : x.1.lo + j - x.1.lo = j := by omega
  constructor
  · rintro ⟨y, hy, coversToo, set⟩
    obtain rfl := eq_of_covers apart hx hy covers coversToo
    rwa [bit] at set
  · intro set
    exact ⟨x, hx, covers, by rwa [bit]⟩

/-- No bit outside the places is set. -/
theorem restIsZero_insertFields (n : Nat) (fs : List (FieldPlace × Nat)) :
    RestIsZero (insertFields 0 fs) n (fs.map Prod.fst) := by
  intro j _ uncovered
  rw [← Bool.not_eq_true, testBit_insertFields]
  rintro (zero | ⟨x, hx, covers, -⟩)
  · simp at zero
  · exact uncovered x.1 (List.mem_map_of_mem hx) covers

/-- Fields that lie inside `n` bits make a number of `n` bits. -/
theorem insertFields_lt {n : Nat} {fs : List (FieldPlace × Nat)} (fits : ∀ f ∈ fs.map Prod.fst, f.lo + f.width ≤ n) :
    insertFields 0 fs < 2 ^ n := by
  apply Nat.lt_pow_two_of_testBit
  intro j high
  rw [← Bool.not_eq_true, testBit_insertFields]
  rintro (zero | ⟨x, hx, covers, -⟩)
  · simp at zero
  · have := fits x.1 (List.mem_map_of_mem hx)
    exact absurd covers.2 (by omega)

/-- A number whose bits outside the places are 0 is made of its own fields. -/
theorem insertFields_bitsAt {V n : Nat} {places : List FieldPlace} (bound : V < 2 ^ n)
    (rest : RestIsZero V n places) : insertFields 0 (places.map fun f => (f, bitsAt V f)) = V := by
  apply Nat.eq_of_testBit_eq
  intro j
  rw [Bool.eq_iff_iff, testBit_insertFields]
  constructor
  · rintro (zero | ⟨x, hx, covers, set⟩)
    · simp at zero
    · obtain ⟨f, -, rfl⟩ := List.mem_map.1 hx
      rw [testBit_bitsAt, Bool.and_eq_true, Nat.add_sub_cancel' covers.1] at set
      exact set.2
  · intro set
    have inside : j < n := by
      by_contra high
      rw [Nat.testBit_lt_two_pow (bound.trans_le (Nat.pow_le_pow_right (by decide) (Nat.not_lt.1 high)))] at set
      cases set
    obtain ⟨f, hf, covers⟩ : ∃ f ∈ places, Covers f j := by
      by_contra uncovered
      rw [rest j inside fun f hf covers => uncovered ⟨f, hf, covers⟩] at set
      cases set
    refine .inr ⟨(f, bitsAt V f), List.mem_map_of_mem hf, covers, ?_⟩
    have below : j - f.lo < f.width := by
      simp only [Covers] at covers
      omega
    rw [testBit_bitsAt, Nat.add_sub_cancel' covers.1, set, Bool.and_true, decide_eq_true below]

/-- A result at least as wide as the field holds the field whole. -/
theorem toNat_ofNat_bitsAt {w : Nat} {f : FieldPlace} (V : Nat) (wide : f.width ≤ w) :
    (BitVec.ofNat w (bitsAt V f)).toNat = bitsAt V f := by
  rw [BitVec.toNat_ofNat]
  exact Nat.mod_eq_of_lt ((bitsAt_lt V f).trans_le (Nat.pow_le_pow_right (by decide) wide))

/-! ### The layouts of D11 to D14 -/

/-- What R63 asks of a layout. -/
theorem placesWf_iff (bits : Nat) (fs : List FieldPlace) :
    placesWf bits fs = true ↔
      (∀ f ∈ fs, f.lo + f.width ≤ bits) ∧ fs.Pairwise fun a b => a.apart b = true := by
  simp [placesWf]

theorem modeLayout_widths {l : Layouts} (wf : l.wf = true) :
    l.modeByte.mode.width = 2 ∧ l.modeByte.color.width = 3 ∧ l.modeByte.id.width = 3 := by
  simp only [Layouts.wf, ModeLayout.wf, Bool.and_eq_true, beq_iff_eq] at wf
  obtain ⟨⟨⟨⟨⟨⟨-, mode⟩, color⟩, id⟩, -⟩, -⟩, -⟩ := wf
  exact ⟨mode, color, id⟩

theorem batteryLayout_widths {l : Layouts} (wf : l.wf = true) :
    l.batteryByte.core.width ≤ 3 ∧ l.batteryByte.surface.width ≤ 2 ∧ l.batteryByte.ambient.width ≤ 2 := by
  simp only [Layouts.wf, BatteryLayout.wf, Bool.and_eq_true, decide_eq_true_eq] at wf
  obtain ⟨⟨⟨-, ⟨⟨⟨-, core⟩, surface⟩, ambient⟩⟩, -⟩, -⟩ := wf
  exact ⟨core, surface, ambient⟩

theorem hopLayout_width {l : Layouts} (wf : l.wf = true) : l.hopByte.width ≤ 8 := by
  simp only [Layouts.wf, Bool.and_eq_true, placesWf_iff, List.forall_mem_singleton] at wf
  obtain ⟨⟨-, fits, -⟩, -⟩ := wf
  omega

/-- A layout of the food-safe buffer: places inside 80 bits that share none, of the widths the source gives (R122). -/
theorem foodSafeLayout_allowed {l : Layouts} (wf : l.wf = true) :
    (∀ f ∈ l.foodSafe.places, f.lo + f.width ≤ 80) ∧
      (l.foodSafe.places.Pairwise fun a b => a.apart b = true) ∧ l.foodSafe.sel.width ≤ 16 ∧
      (l.foodSafe.thr.width = 13 ∧ l.foodSafe.z.width = 13 ∧ l.foodSafe.ref.width = 13 ∧ l.foodSafe.d.width = 13) ∧
      l.foodSafe.lr.width = 8 := by
  simp only [Layouts.wf, FoodSafeLayout.wf, Bool.and_eq_true, beq_iff_eq, decide_eq_true_eq, placesWf_iff] at wf
  obtain ⟨-, ⟨⟨⟨⟨⟨⟨fits, apart⟩, sel⟩, thr⟩, z⟩, ref⟩, d⟩, lr⟩ := wf
  exact ⟨fits, apart, sel, ⟨thr, z, ref, d⟩, lr⟩

/-! ### Packed bytes (R116 to R121) -/

/-- Every mode code has a mode (R84). -/
theorem opModeCode_opModeOfCode (c : BitVec 2) : opModeCode (opModeOfCode c) = c := by
  revert c
  decide

theorem coreSelector_of_le {c : Nat} (h : c ≤ 5) : (coreSelector c).toNat = c := by
  rw [coreSelector, if_pos h, BitVec.toNat_ofNat]
  omega

theorem coreSelector_of_gt {c : Nat} (h : 5 < c) : coreSelector c = 0#3 := if_neg (Nat.not_le.2 h)

/-- Settles O9: each result is wide enough for its field at every allowed layout. -/
theorem packedBytesDecode : Obligations.PackedBytesDecode := by
  intro b s wf
  refine ⟨?mode, ?battery, ?hop⟩
  case mode =>
    obtain ⟨mode, color, id⟩ := modeLayout_widths wf
    refine ⟨_, decodeModeIdentity s.params b, rfl, onlyAnswers_respond _ _, ?_, ?_, ?_⟩
    · simp only [decodeModeIdentity, opModeCode_opModeOfCode, byteField_eq_bitsAt]
      exact toNat_ofNat_bitsAt _ mode.le
    · simp only [decodeModeIdentity, byteField_eq_bitsAt]
      exact toNat_ofNat_bitsAt _ color.le
    · simp only [decodeModeIdentity, byteField_eq_bitsAt]
      exact toNat_ofNat_bitsAt _ id.le
  case battery =>
    obtain ⟨core, surface, ambient⟩ := batteryLayout_widths wf
    refine ⟨_, decodeSensors s.params b, rfl, onlyAnswers_respond _ _, ?_⟩
    simp only [decodeSensors, byteField_eq_bitsAt, decide_eq_true_eq]
    exact ⟨trivial, coreSelector_of_le, coreSelector_of_gt, toNat_ofNat_bitsAt _ surface, toNat_ofNat_bitsAt _ ambient⟩
  case hop =>
    refine ⟨_, decodeHop s.params b, rfl, onlyAnswers_respond _ _, ?_⟩
    rw [decodeHop, byteField_eq_bitsAt]
    exact toNat_ofNat_bitsAt _ (hopLayout_width wf)

end Sys2Proof.Machine
end

section
/-! PROOFS. Unit CODEC, the food-safe parameters: rounding as the inequalities of R8, a centi value against its raw code, the
10 bytes as fields at the places of the layout, and the round trips of R125. -/

namespace Sys2Proof.Machine

/-! ### Rounding (R8) -/

/-- The rounded quotient of a value that is not negative. -/
theorem rnd_bounds {n : Int} {d : Nat} (step : 0 < d) (nonneg : 0 ≤ n) :
    0 ≤ rnd n d ∧ 2 * d * rnd n d ≤ 2 * n + d ∧ 2 * n + d < 2 * d * (rnd n d + 1) := by
  have positive : (0 : Int) < 2 * d := by omega
  rw [rnd_of_nonneg n d nonneg]
  refine ⟨Int.ediv_nonneg (by omega) positive.le, Int.mul_ediv_self_le positive.ne', ?_⟩
  rw [mul_add_one]
  exact Int.lt_mul_ediv_self_add positive

/-- `rnd` rounds to the nearest, ties away from zero: the negative values mirror the others. -/
theorem rnd_roundsTo (n : Int) {d : Nat} (step : 0 < d) : RoundsTo n d (rnd n d) := by
  refine ⟨rnd_bounds step, fun negative => ?_⟩
  obtain ⟨lower, below, above⟩ := rnd_bounds step (n := -n) (by omega)
  rw [rnd_neg] at lower below above
  exact ⟨by omega, below, above⟩

/-- A multiple of the step is rounded to its quotient. -/
theorem rnd_mul (d m : Nat) (step : 0 < d) : rnd ((d * m : Nat) : Int) d = m := by
  have positive : (0 : Int) < 2 * d := by omega
  have shape : 2 * ((d * m : Nat) : Int) + d = d + m * (2 * d) := by push_cast; ring
  rw [rnd_of_nonneg _ _ (Int.natCast_nonneg _), shape, Int.add_mul_ediv_right _ _ positive.ne',
    Int.ediv_eq_zero_of_lt (by omega) (by omega), zero_add]

/-! ### Centi values and raw codes (R90, R123, R124) -/

/-- The centi value of a field, where the greatest one fits 32 bits. -/
theorem centiField_toInt {lsb : Nat} {f : FieldPlace} (buf : Buffer) (step : 0 < lsb)
    (fits : lsb * 2 ^ f.width ≤ 2 ^ 31) :
    (centiField lsb buf f).toInt = ((lsb * bitsAt (leNat buf) f : Nat) : Int) := by
  have bound : lsb * bitsAt (leNat buf) f < lsb * 2 ^ f.width := Nat.mul_lt_mul_of_pos_left (bitsAt_lt _ _) step
  rw [centiField, fieldAt_eq_bitsAt, BitVec.toInt_ofNat']
  exact Int.bmod_eq_of_le (by omega) (by omega)

/-- Rounding what was decoded gives the raw code back. -/
theorem rawField_centiField {lsb : Nat} {f : FieldPlace} (buf : Buffer) (step : 0 < lsb)
    (fits : lsb * 2 ^ f.width ≤ 2 ^ 31) :
    rawField f.width lsb (centiField lsb buf f) = bitsAt (leNat buf) f := by
  have bound := bitsAt_lt (leNat buf) f
  zify
  rw [rawField_eq, centiField_toInt buf step fits, rnd_mul _ _ step]
  exact_mod_cast Nat.mod_eq_of_lt bound

/-- A code that the field has room for is not masked. -/
theorem rawField_of_fits {w lsb : Nat} {v : S32} (step : 0 < lsb) (nonneg : 0 ≤ v.toInt)
    (fits : 2 * v.toInt + lsb < 2 * lsb * 2 ^ w) : ((rawField w lsb v : Nat) : Int) = rnd v.toInt lsb := by
  obtain ⟨lower, below, -⟩ := rnd_bounds step nonneg
  have positive : (0 : Int) ≤ 2 * lsb := by omega
  rw [rawField_eq]
  exact Int.emod_eq_of_lt lower (lt_of_mul_lt_mul_left (below.trans_lt fits) positive)

/-! ### The 10 bytes (R122 to R124) -/

/-- The places of the layout, each with what the encoder puts there. -/
def foodSafeFields (c : Params) (v : FoodSafe) : List (FieldPlace × Nat) :=
  [(c.layouts.foodSafe.sel, v.sel.toNat),
    (c.layouts.foodSafe.thr, rawField c.layouts.foodSafe.thr.width c.consts.tempLsbCenti v.thr),
    (c.layouts.foodSafe.z, rawField c.layouts.foodSafe.z.width c.consts.tempLsbCenti v.z),
    (c.layouts.foodSafe.ref, rawField c.layouts.foodSafe.ref.width c.consts.tempLsbCenti v.ref),
    (c.layouts.foodSafe.d, rawField c.layouts.foodSafe.d.width c.consts.tempLsbCenti v.d),
    (c.layouts.foodSafe.lr, rawField c.layouts.foodSafe.lr.width c.consts.lrLsbCenti v.lr)]

theorem packFoodSafe_eq (c : Params) (v : FoodSafe) : packFoodSafe c v = insertFields 0 (foodSafeFields c v) := rfl

@[simp] theorem encodeFoodSafe_length (c : Params) (v : FoodSafe) : (encodeFoodSafe c v).length = 10 := leBytes_length _ _

/-- The 10 bytes hold the fields whole. -/
theorem leNat_encodeFoodSafe {c : Params} (wf : c.layouts.wf = true) (v : FoodSafe) :
    leNat (encodeFoodSafe c v) = insertFields 0 (foodSafeFields c v) := by
  obtain ⟨fits, -⟩ := foodSafeLayout_allowed wf
  have bound : insertFields 0 (foodSafeFields c v) < 256 ^ 10 := insertFields_lt (n := 80) fits
  rw [encodeFoodSafe, packFoodSafe_eq, leNat_leBytes, Nat.mod_eq_of_lt bound]

/-- Each place of the 10 bytes holds what the encoder put there. -/
theorem bitsAt_encodeFoodSafe {c : Params} (wf : c.layouts.wf = true) {v : FoodSafe} {x : FieldPlace × Nat}
    (hx : x ∈ foodSafeFields c v) : bitsAt (leNat (encodeFoodSafe c v)) x.1 = x.2 % 2 ^ x.1.width := by
  obtain ⟨-, apart, -⟩ := foodSafeLayout_allowed wf
  rw [leNat_encodeFoodSafe wf]
  exact bitsAt_insertFields (fs := foodSafeFields c v) apart hx

/-- A raw code is in its place as it was computed: it was masked to its field before. -/
theorem bitsAt_encodeFoodSafe_raw {c : Params} (wf : c.layouts.wf = true) {v : FoodSafe} {f : FieldPlace} {lsb : Nat}
    {x : S32} (hx : (f, rawField f.width lsb x) ∈ foodSafeFields c v) :
    bitsAt (leNat (encodeFoodSafe c v)) f = rawField f.width lsb x :=
  (bitsAt_encodeFoodSafe wf hx).trans (Nat.mod_eq_of_lt (BitVec.isLt _))

/-- All bits outside the places are 0. -/
theorem restIsZero_encodeFoodSafe {c : Params} (wf : c.layouts.wf = true) (v : FoodSafe) :
    RestIsZero (leNat (encodeFoodSafe c v)) 80 c.layouts.foodSafe.places := by
  rw [leNat_encodeFoodSafe wf]
  exact restIsZero_insertFields 80 (foodSafeFields c v)

theorem decodeFoodSafe_of_short {c : Params} {buf : Buffer} (h : buf.length < 10) : decodeFoodSafe c buf = none := if_pos h

theorem decodeFoodSafe_of_long {c : Params} {buf : Buffer} (h : 10 ≤ buf.length) :
    decodeFoodSafe c buf = some (unpackFoodSafe c (buf.take 10)) :=
  if_neg (Nat.not_lt.2 h)

theorem decodeFoodSafe_of_exact {c : Params} {buf : Buffer} (h : buf.length = 10) :
    decodeFoodSafe c buf = some (unpackFoodSafe c buf) := by
  rw [decodeFoodSafe_of_long h.ge, List.take_of_length_le h.le]

/-- The decoded values: each field times its step (R123). -/
theorem unpackFoodSafe_values {c : Params} (table : c.consts = tableConsts) (wf : c.layouts.wf = true) (buf : Buffer) :
    (unpackFoodSafe c buf).sel.toNat = bitsAt (leNat buf) c.layouts.foodSafe.sel ∧
      (unpackFoodSafe c buf).thr.toInt = 5 * (bitsAt (leNat buf) c.layouts.foodSafe.thr : Nat) ∧
      (unpackFoodSafe c buf).z.toInt = 5 * (bitsAt (leNat buf) c.layouts.foodSafe.z : Nat) ∧
      (unpackFoodSafe c buf).ref.toInt = 5 * (bitsAt (leNat buf) c.layouts.foodSafe.ref : Nat) ∧
      (unpackFoodSafe c buf).d.toInt = 5 * (bitsAt (leNat buf) c.layouts.foodSafe.d : Nat) ∧
      (unpackFoodSafe c buf).lr.toInt = 10 * (bitsAt (leNat buf) c.layouts.foodSafe.lr : Nat) := by
  obtain ⟨-, -, sel, ⟨thr, z, ref, d⟩, lr⟩ := foodSafeLayout_allowed wf
  have value {f : FieldPlace} (width : f.width = 13) : (centiField 5 buf f).toInt = 5 * (bitsAt (leNat buf) f : Nat) := by
    rw [centiField_toInt buf (by decide) (by rw [width]; decide), Nat.cast_mul]
    rfl
  have reduction : (centiField 10 buf c.layouts.foodSafe.lr).toInt =
      10 * (bitsAt (leNat buf) c.layouts.foodSafe.lr : Nat) := by
    rw [centiField_toInt buf (by decide) (by rw [lr]; decide), Nat.cast_mul]
    rfl
  simp only [unpackFoodSafe, table, fieldAt_eq_bitsAt]
  exact ⟨toNat_ofNat_bitsAt _ sel, value thr, value z, value ref, value d, reduction⟩

/-- Settles O10: RX_MAX and then the length decide the answer, and `unpackFoodSafe_values` gives the fields. -/
theorem fsdecReadsFields : Obligations.FsdecReadsFields := by
  intro buf s table wf
  refine ⟨fun accepted => ⟨fun short => ?short, fun long => ?long⟩, fun n rxMax longer => ?dropped⟩
  case short =>
    exact replyOption_none (by rw [received_of_le _ _ accepted, Option.bind_some, decodeFoodSafe_of_short short]) s
  case long =>
    obtain ⟨t, completes, answers⟩ := replyOption_some (f := .foodSafe)
      (o := (received s.params buf).bind (decodeFoodSafe s.params))
      (by rw [received_of_le _ _ accepted, Option.bind_some, decodeFoodSafe_of_long long]) s
    exact ⟨t, _, completes, answers, unpackFoodSafe_values table wf _⟩
  case dropped =>
    exact replyOption_none (by rw [received_of_lt _ _ n rxMax longer, Option.bind_none]) s

/-- Settles O11: each place holds the rounded quotient modulo its field, and no other bit is set. -/
theorem fsencRoundsThenMasks : Obligations.FsencRoundsThenMasks := by
  intro p s table wf
  obtain ⟨-, -, -, ⟨thr, z, ref, d⟩, lr⟩ := foodSafeLayout_allowed wf
  have code {f : FieldPlace} {lsb w : Nat} {x : S32} (width : f.width = w)
      (hx : (f, rawField f.width lsb x) ∈ foodSafeFields s.params p) :
      (bitsAt (leNat (encodeFoodSafe s.params p)) f : Int) = rnd x.toInt lsb % 2 ^ w := by
    rw [bitsAt_encodeFoodSafe_raw wf hx, rawField_eq, width]
  refine ⟨_, encodeFoodSafe s.params p, rfl, onlyAnswers_respond _ _, encodeFoodSafe_length _ _, rnd p.thr.toInt 5,
    rnd p.z.toInt 5, rnd p.ref.toInt 5, rnd p.d.toInt 5, rnd p.lr.toInt 10, rnd_roundsTo _ (by decide),
    rnd_roundsTo _ (by decide), rnd_roundsTo _ (by decide), rnd_roundsTo _ (by decide), rnd_roundsTo _ (by decide),
    bitsAt_encodeFoodSafe wf (x := (_, p.sel.toNat)) (by simp [foodSafeFields]), code thr ?_, code z ?_, code ref ?_,
    code d ?_, code lr ?_, restIsZero_encodeFoodSafe wf p⟩ <;>
    simp [foodSafeFields, table, tableConsts]

/-! ### Round trips (R125) -/

/-- What the encoder puts for decoded parameters is what the decoder read. -/
theorem foodSafeFields_unpackFoodSafe {c : Params} (table : c.consts = tableConsts) (wf : c.layouts.wf = true)
    (b : Buffer) :
    foodSafeFields c (unpackFoodSafe c b) = c.layouts.foodSafe.places.map fun f => (f, bitsAt (leNat b) f) := by
  obtain ⟨-, -, sel, ⟨thr, z, ref, d⟩, lr⟩ := foodSafeLayout_allowed wf
  have code {f : FieldPlace} (width : f.width = 13) : rawField f.width 5 (centiField 5 b f) = bitsAt (leNat b) f :=
    rawField_centiField b (by decide) (by rw [width]; decide)
  have reduction : rawField c.layouts.foodSafe.lr.width 10 (centiField 10 b c.layouts.foodSafe.lr) =
      bitsAt (leNat b) c.layouts.foodSafe.lr := rawField_centiField b (by decide) (by rw [lr]; decide)
  have selector := toNat_ofNat_bitsAt (leNat b) sel
  simp only [foodSafeFields, FoodSafeLayout.places, List.map_cons, List.map_nil, unpackFoodSafe, fieldAt_eq_bitsAt, selector,
    table, tableConsts, code thr, code z, code ref, code d, reduction]

/-- R125 (a): a 10-byte string with its reserved bits 0 is the encoding of what it decodes to. -/
theorem encodeFoodSafe_unpackFoodSafe {c : Params} (table : c.consts = tableConsts) (wf : c.layouts.wf = true)
    {b : Buffer} (len : b.length = 10) (rest : RestIsZero (leNat b) 80 c.layouts.foodSafe.places) :
    encodeFoodSafe c (unpackFoodSafe c b) = b := by
  have bound : leNat b < 2 ^ 80 := by
    have := leNat_lt b
    rwa [len] at this
  rw [encodeFoodSafe, packFoodSafe_eq, foodSafeFields_unpackFoodSafe table wf, insertFields_bitsAt bound rest, ← len,
    leBytes_leNat]

/-- A value that its field has room for comes back within half a step. -/
theorem decoded_within_half_step {c : Params} (wf : c.layouts.wf = true) {p : FoodSafe} {f : FieldPlace} {lsb : Nat}
    {x y : S32} (step : 0 < lsb) (hx : (f, rawField f.width lsb x) ∈ foodSafeFields c p) (nonneg : 0 ≤ x.toInt)
    (fits : 2 * x.toInt + lsb < 2 * lsb * 2 ^ f.width)
    (decoded : y.toInt = lsb * (bitsAt (leNat (encodeFoodSafe c p)) f : Nat)) : 2 * |y.toInt - x.toInt| ≤ lsb := by
  obtain ⟨-, below, above⟩ := rnd_bounds step nonneg
  rw [bitsAt_encodeFoodSafe_raw wf hx, rawField_of_fits step nonneg fits] at decoded
  rcases abs_cases (y.toInt - x.toInt) with ⟨e, -⟩ | ⟨e, -⟩ <;> rw [e, decoded] <;> linarith

/-- R125 (b): operands in range come back within half a step, the selector without the bits its place has no room for. -/
theorem unpackFoodSafe_encodeFoodSafe_close {c : Params} (table : c.consts = tableConsts) (wf : c.layouts.wf = true)
    {p : FoodSafe} (inRange : ∀ v ∈ [p.thr, p.z, p.ref, p.d], 0 ≤ v.toInt ∧ v.toInt ≤ 40957) (lrNonneg : 0 ≤ p.lr.toInt)
    (lrInRange : p.lr.toInt ≤ 2554) :
    let q := unpackFoodSafe c (encodeFoodSafe c p)
    q.sel.toNat = p.sel.toNat % 2 ^ c.layouts.foodSafe.sel.width ∧ |q.thr.toInt - p.thr.toInt| ≤ 2 ∧
      |q.z.toInt - p.z.toInt| ≤ 2 ∧ |q.ref.toInt - p.ref.toInt| ≤ 2 ∧ |q.d.toInt - p.d.toInt| ≤ 2 ∧
      |q.lr.toInt - p.lr.toInt| ≤ 5 := by
  intro q
  obtain ⟨-, -, -, ⟨thr, z, ref, d⟩, lr⟩ := foodSafeLayout_allowed wf
  obtain ⟨qSel, qThr, qZ, qRef, qD, qLr⟩ := unpackFoodSafe_values table wf (encodeFoodSafe c p)
  have near {f : FieldPlace} {x y : S32} (width : f.width = 13) (hx : (f, rawField f.width 5 x) ∈ foodSafeFields c p)
      (range : 0 ≤ x.toInt ∧ x.toInt ≤ 40957)
      (decoded : y.toInt = 5 * (bitsAt (leNat (encodeFoodSafe c p)) f : Nat)) : |y.toInt - x.toInt| ≤ 2 := by
    have := decoded_within_half_step wf (lsb := 5) (by decide) hx range.1 (by rw [width]; omega) decoded
    omega
  have nearReduction {f : FieldPlace} {y : S32} (width : f.width = 8)
      (hx : (f, rawField f.width 10 p.lr) ∈ foodSafeFields c p)
      (decoded : y.toInt = 10 * (bitsAt (leNat (encodeFoodSafe c p)) f : Nat)) : |y.toInt - p.lr.toInt| ≤ 5 := by
    have := decoded_within_half_step wf (lsb := 10) (by decide) hx lrNonneg (by rw [width]; omega) decoded
    omega
  simp only [List.forall_mem_cons] at inRange
  obtain ⟨thrRange, zRange, refRange, dRange, -⟩ := inRange
  refine ⟨qSel.trans (bitsAt_encodeFoodSafe wf (x := (_, p.sel.toNat)) ?_), near thr ?_ thrRange qThr,
    near z ?_ zRange qZ, near ref ?_ refRange qRef, near d ?_ dRange qD, nearReduction lr ?_ qLr⟩ <;>
    simp [foodSafeFields, table, tableConsts]

/-- Settles O12: (b) is closeness, (a) re-encoding, and (c) is (a) of an encoded buffer, whose reserved bits are 0. -/
theorem foodSafeRoundTrips : Obligations.FoodSafeRoundTrips := by
  intro c table wf
  refine ⟨fun b len rest => ?reencode, fun p inRange lrNonneg lrInRange => ?close, fun p q decoded => ?twice⟩
  case reencode =>
    rw [decodeFoodSafe_of_exact len, Option.map_some, encodeFoodSafe_unpackFoodSafe table wf len rest]
  case close =>
    exact ⟨_, decodeFoodSafe_of_exact (encodeFoodSafe_length c p),
      unpackFoodSafe_encodeFoodSafe_close table wf inRange lrNonneg lrInRange⟩
  case twice =>
    have len := encodeFoodSafe_length c p
    obtain rfl : unpackFoodSafe c (encodeFoodSafe c p) = q := by
      rwa [decodeFoodSafe_of_exact len, Option.some.injEq] at decoded
    rwa [encodeFoodSafe_unpackFoodSafe table wf len (restIsZero_encodeFoodSafe wf p)]

end Sys2Proof.Machine
end

section
/-! PROOFS. Unit CODEC, the advertising record: what an accepted payload decodes to, and when there is no record. -/

namespace Sys2Proof.Machine

/-! ### Reads of a buffer that is long enough (R7, R65) -/

/-- A slice that lies inside the buffer is its bytes one by one. -/
theorem slice_eq_map (buf : Buffer) (a n : Nat) (h : a + n ≤ buf.length) :
    slice buf a n = (List.range n).map fun k => byteAt buf (a + k) := by
  apply List.ext_getElem
  · simp [slice]
    omega
  · intro k _ hk
    have inside : a + k < buf.length := by
      simp at hk
      omega
    simp [slice, byteAt, inside]

/-- The big-endian read of four bytes, as the serial is read (R61). -/
theorem beAt_four (buf : Buffer) (a : Nat) (h : a + 4 ≤ buf.length) :
    beAt 4 buf a = (byteAt buf a).toNat * 2 ^ 24 + (byteAt buf (a + 1)).toNat * 2 ^ 16 +
      (byteAt buf (a + 2)).toNat * 2 ^ 8 + (byteAt buf (a + 3)).toNat := by
  rw [beAt, slice_eq_map buf a 4 h]
  simp [List.range_succ, beNat]
  omega

/-! ### Decoding (R126, R127) -/

/-- The record of an accepted payload: each optional byte counts when the buffer reaches it. -/
def advertRecord (c : Params) (buf : Buffer) : AdvRecord where
  product := byteAt buf 2
  serial := BitVec.ofNat 32 (beAt 4 buf 3)
  temps := unpackTemps (slice buf 7 13)
  modeId := if buf.length > 20 then decodeModeIdentity c (byteAt buf 20) else ⟨0#3, 0#3, .normal⟩
  sensors := if buf.length > 21 then decodeSensors c (byteAt buf 21) else ⟨false, 0#3, 0#2, 0#2⟩
  hop := if buf.length > 22 then some (decodeHop c (byteAt buf 22)) else none

/-- The three tests of R126: the length, the vendor and the product. -/
theorem decodeAdvert_eq {c : Params} (table : c.consts = tableConsts) (buf : Buffer) :
    decodeAdvert c buf =
      if buf.length < 20 ∨ leNat (buf.take 2) ≠ c.vendorId.toNat ∨ byteAt buf 2 ≠ c.productProbe then none
      else some (advertRecord c buf) := by
  have minimum : c.consts.advMinLen = 20 := by rw [table]; rfl
  have vendor : leAt 2 buf 0 = leNat (buf.take 2) := rfl
  rw [decodeAdvert, minimum, vendor, ite_or, ite_or]
  rfl

/-- The serial is the big-endian number of bytes 3 to 6. -/
theorem advertRecord_serial (c : Params) {buf : Buffer} (h : 20 ≤ buf.length) :
    (advertRecord c buf).serial.toNat = (byteAt buf 3).toNat * 2 ^ 24 + (byteAt buf 4).toNat * 2 ^ 16 +
      (byteAt buf 5).toNat * 2 ^ 8 + (byteAt buf 6).toNat := by
  have b3 := (byteAt buf 3).isLt
  have b4 := (byteAt buf 4).isLt
  have b5 := (byteAt buf 5).isLt
  have b6 := (byteAt buf 6).isLt
  have serial : beAt 4 buf 3 = (byteAt buf 3).toNat * 2 ^ 24 + (byteAt buf 4).toNat * 2 ^ 16 +
      (byteAt buf 5).toNat * 2 ^ 8 + (byteAt buf 6).toNat := beAt_four buf 3 (by omega)
  rw [advertRecord, serial, BitVec.toNat_ofNat, Nat.mod_eq_of_lt (by omega)]

/-- The temperatures are those of the bytes from 7 on. -/
theorem advertRecord_temps (c : Params) {buf : Buffer} (h : 20 ≤ buf.length) :
    decodeTemps (buf.drop 7) = some (advertRecord c buf).temps :=
  decodeTemps_of_long (by rw [List.length_drop]; omega)

/-- Settles O13: RX_MAX and then the three tests decide the answer; each optional byte is read where the buffer
reaches it. -/
theorem adecFiltersAndDefaults : Obligations.AdecFiltersAndDefaults := by
  intro buf s table
  refine ⟨fun accepted => ⟨fun refused => ?refused, fun long vendor product => ?record⟩, fun n rxMax longer => ?dropped⟩
  case refused =>
    exact replyOption_none (by rw [received_of_le _ _ accepted, Option.bind_some, decodeAdvert_eq table, if_pos refused]) s
  case record =>
    have notRefused :
        ¬ (buf.length < 20 ∨ leNat (buf.take 2) ≠ s.params.vendorId.toNat ∨ byteAt buf 2 ≠ s.params.productProbe) := by
      simp [Nat.not_lt.2 long, vendor, product]
    obtain ⟨t, completes, answers⟩ := replyOption_some (f := .advert)
      (o := (received s.params buf).bind (decodeAdvert s.params))
      (by rw [received_of_le _ _ accepted, Option.bind_some, decodeAdvert_eq table, if_neg notRefused]) s
    refine ⟨t, _, completes, answers, product, advertRecord_serial _ long, advertRecord_temps _ long,
      fun reached => if_pos reached, fun missing => ?noModeId, fun reached => if_pos reached, fun missing => ?noSensors,
      fun reached => if_pos reached, fun missing => if_neg (Nat.not_lt.2 missing)⟩
    case noModeId => simp [advertRecord, Nat.not_lt.2 missing]
    case noSensors => simp [advertRecord, Nat.not_lt.2 missing]
  case dropped =>
    exact replyOption_none (by rw [received_of_lt _ _ n rxMax longer, Option.bind_none]) s

end Sys2Proof.Machine
end

section
/-! PROOFS. Unit FRAME, the checksum (R151): the model's reflection is the reversal of a word, a byte goes into the register
reversibly when the generator polynomial has a constant term, so the CRC sees one changed byte. -/

namespace Sys2Proof.Machine

/-! ### Reflection -/

theorem reflectBits_lt (n v : Nat) : reflectBits n v < 2 ^ n := by
  induction n generalizing v with
  | zero => simp [reflectBits]
  | succ n ih =>
    have top : v % 2 ≤ 1 := by omega
    calc v % 2 * 2 ^ n + reflectBits n (v / 2) < 1 * 2 ^ n + 2 ^ n :=
          Nat.add_lt_add_of_le_of_lt (Nat.mul_le_mul_right _ top) (ih _)
      _ = 2 ^ (n + 1) := by ring

/-- Bit `j` of a reflected number is bit `n - 1 - j` of the number. -/
theorem testBit_reflectBits (n v j : Nat) :
    (reflectBits n v).testBit j = (decide (j < n) && v.testBit (n - 1 - j)) := by
  induction n generalizing v with
  | zero => simp [reflectBits]
  | succ n ih =>
    rw [reflectBits, Nat.mul_comm, Nat.testBit_two_pow_mul_add _ (reflectBits_lt _ _)]
    rcases Nat.lt_trichotomy j n with below | rfl | above
    · have bit : n - 1 - j + 1 = n - j := by omega
      simp [ih, Nat.testBit_div_two, below, Nat.lt_succ_of_lt below, bit]
    · simp
    · have outside : ¬ j < n + 1 := by omega
      have high : v % 2 < 2 ^ (j - n) := (Nat.mod_lt _ (by decide)).trans_le (Nat.le_self_pow (by omega) 2)
      simp [Nat.not_lt.2 (Nat.le_of_lt above), outside, Nat.testBit_lt_two_pow high]

/-- `refl_n` of R151 is the reversal of the word. -/
theorem ofNat_reflectBits {w : Nat} (x : BitVec w) : BitVec.ofNat w (reflectBits w x.toNat) = x.reverse := by
  apply BitVec.eq_of_getLsbD_eq
  intro i inside
  rw [BitVec.getLsbD_ofNat, testBit_reflectBits, BitVec.getLsbD_reverse, BitVec.getMsbD_eq_getLsbD, BitVec.testBit_toNat]
  simp [inside]

theorem reverse_injective {w : Nat} : Function.Injective (BitVec.reverse (w := w)) :=
  Function.LeftInverse.injective fun _ => BitVec.reverse_reverse_eq

/-! ### The register -/

/-- The register after a message, before the output is finished (R151). -/
def crcRegister (p : Params) (buf : Buffer) : U16 := buf.foldl (crcByte p) p.crcInit

/-- A message byte as it enters the register: reflected if the input is. -/
def crcInput (p : Params) (b : Byte) : Byte := if p.crcRefIn then b.reverse else b

theorem crcShift_eq (p : Params) :
    crcShift p = fun c : U16 => if c.getLsbD 15 then (c <<< 1) ^^^ p.crcPoly else c <<< 1 := by
  funext c
  rw [crcShift, BitVec.msb_eq_getLsbD_last]

theorem crcShifts_eq_repeat (p : Params) (n : Nat) (c : U16) : crcShifts p n c = Nat.repeat (crcShift p) n c := by
  have later (n : Nat) (c : U16) : Nat.repeat (crcShift p) n (crcShift p c) = crcShift p (Nat.repeat (crcShift p) n c) := by
    induction n with
    | zero => rfl
    | succ n ih => simp only [Nat.repeat, ih]
  induction n generalizing c with
  | zero => rfl
  | succ n ih => rw [crcShifts, ih, later, Nat.repeat]

theorem crcByte_eq (p : Params) (c : U16) (b : Byte) :
    crcByte p c b = crcShifts p 8 (c ^^^ ((crcInput p b).setWidth 16 <<< 8)) := by
  simp only [crcByte, crcInput, ofNat_reflectBits]

theorem crcRegister_append (p : Params) (xs ys : Buffer) :
    crcRegister p (xs ++ ys) = ys.foldl (crcByte p) (crcRegister p xs) := List.foldl_append

theorem crcFinish_eq (p : Params) (c : U16) : crcFinish p c = (if p.crcRefOut then c.reverse else c) ^^^ p.crcXorOut := by
  rw [crcFinish, ofNat_reflectBits]

theorem crc16_eq (p : Params) (buf : Buffer) : crc16 p buf = crcFinish p (crcRegister p buf) := rfl

/-- The three check values that R151 prints, of the digits 1 to 9: the register is run shift by shift. -/
theorem crc16_check_values :
    let digits : Buffer := [0x31, 0x32, 0x33, 0x34, 0x35, 0x36, 0x37, 0x38, 0x39]
    crc16 defaultParams digits = 0x29B1#16 ∧ crc16 { defaultParams with crcInit := 0#16 } digits = 0x31C3#16 ∧
      crc16 { defaultParams with crcInit := 0#16, crcRefIn := true, crcRefOut := true } digits = 0x2189#16 := by
  simp [crc16, crcByte, crcShifts, crcShift_eq, crcFinish, reflectBits, defaultParams]

/-- Settles O14: the register is the fold of the bytes, whose last byte `crcByte_eq` takes in; reflection is reversal. -/
theorem crc16AnswersChecksum : Obligations.Crc16AnswersChecksum := by
  refine ⟨fun buf s => ⟨_, rfl, onlyAnswers_respond _ _⟩,
    fun p => ⟨crcRegister p, rfl, fun buf b => ?takesIn, fun buf => ?finish⟩, fun p plain => ?emptyPlain, fun p reflected => ?emptyReflected, crc16_check_values⟩
  case takesIn =>
    rw [crcRegister_append, List.foldl_cons, List.foldl_nil, crcByte_eq, crcShifts_eq_repeat, crcShift_eq, crcInput]
  case finish => rw [crc16_eq, crcFinish_eq]
  case emptyPlain => simp [crc16_eq, crcFinish_eq, crcRegister, plain]
  case emptyReflected => simp [crc16_eq, crcFinish_eq, crcRegister, reflected]

/-! ### One changed byte (R160 (b)) -/

/-- With a constant term, the lowest bit after a shift is the bit shifted out. -/
theorem getLsbD_zero_crcShift {p : Params} (constant : p.crcPoly.getLsbD 0 = true) (c : U16) :
    (crcShift p c).getLsbD 0 = c.msb := by
  rw [crcShift]
  cases c.msb <;> simp [constant]

/-- With a constant term, a shift loses nothing: the bit shifted out is the lowest bit of the result, the others are its
upper bits once the polynomial is taken off again. -/
theorem crcShift_injective {p : Params} (constant : p.crcPoly.getLsbD 0 = true) : Function.Injective (crcShift p) := by
  intro c d same
  have top : c.msb = d.msb := by rw [← getLsbD_zero_crcShift constant c, same, getLsbD_zero_crcShift constant d]
  have upper : c <<< 1 = d <<< 1 := by
    simp only [crcShift, top] at same
    split at same
    · exact (BitVec.xor_left_inj _).1 same
    · exact same
  apply BitVec.eq_of_getLsbD_eq
  intro i inside
  rcases Nat.lt_or_eq_of_le (Nat.le_of_lt_succ inside) with below | rfl
  · have bit := congrArg (fun x : U16 => x.getLsbD (i + 1)) upper
    have room : i + 1 < 16 := Nat.succ_lt_succ below
    simpa [room, inside] using bit
  · simpa [BitVec.msb_eq_getLsbD_last] using top

theorem crcShifts_injective {p : Params} (constant : p.crcPoly.getLsbD 0 = true) (n : Nat) :
    Function.Injective (crcShifts p n) := by
  induction n with
  | zero => exact fun _ _ same => same
  | succ n ih => exact fun _ _ same => crcShift_injective constant (ih same)

/-- Different registers stay different when they take in the same byte. -/
theorem crcByte_injective_register {p : Params} (constant : p.crcPoly.getLsbD 0 = true) (b : Byte) :
    Function.Injective fun c => crcByte p c b := by
  intro c d same
  simp only [crcByte_eq] at same
  exact (BitVec.xor_left_inj _).1 (crcShifts_injective constant 8 same)

/-- Different bytes make one register different. -/
theorem crcByte_injective_byte {p : Params} (constant : p.crcPoly.getLsbD 0 = true) (c : U16) :
    Function.Injective (crcByte p c) := by
  intro a b same
  simp only [crcByte_eq] at same
  have placed := (BitVec.xor_right_inj _).1 (crcShifts_injective constant 8 same)
  have input : crcInput p a = crcInput p b := by
    apply BitVec.eq_of_getLsbD_eq
    intro i inside
    have bit := congrArg (fun x : U16 => x.getLsbD (i + 8)) placed
    have room : i + 8 < 16 := by omega
    have low : i < 16 := by omega
    simpa [room, low] using bit
  simp only [crcInput] at input
  split at input
  · exact reverse_injective input
  · exact input

theorem foldl_crcByte_injective {p : Params} (constant : p.crcPoly.getLsbD 0 = true) (bytes : Buffer) :
    Function.Injective fun c => bytes.foldl (crcByte p) c := by
  induction bytes with
  | nil => exact fun _ _ same => same
  | cons b bytes ih => exact fun _ _ same => crcByte_injective_register constant b (ih same)

theorem crcFinish_injective (p : Params) : Function.Injective (crcFinish p) := by
  intro c d same
  simp only [crcFinish_eq] at same
  have before := (BitVec.xor_left_inj _).1 same
  split at before
  · exact reverse_injective before
  · exact before

/-- Settles O15: the registers differ after the changed byte, every later byte keeps them different, and so does the end. -/
theorem crcSeesOneChangedByte : Obligations.CrcSeesOneChangedByte := by
  intro p before after b c constant changed same
  rw [crc16_eq, crc16_eq] at same
  have registers := crcFinish_injective p same
  rw [crcRegister_append, crcRegister_append, List.foldl_cons, List.foldl_cons] at registers
  exact changed (crcByte_injective_byte constant _ (foldl_crcByte_injective constant after registers))

end Sys2Proof.Machine
end

section
/-! PROOFS. Unit FRAME, requests and the parser (R153, R156): the frame that FBUILD answers, the bounds of a parse, and the one
fact the parser's proofs turn on: a frame is accepted exactly where a valid response frame of R69 stands. -/

namespace Sys2Proof.Machine

/-! ### Requests (R153) -/

/-- The number of a 16-bit word's two bytes is the word (R152). -/
theorem leNat_leBytes_two (c : U16) : leNat (leBytes 2 c.toNat) = c.toNat := by
  have bound : c.toNat < 256 ^ 2 := c.isLt
  rw [leNat_leBytes, Nat.mod_eq_of_lt bound]

/-- With the header of R5, a request is the sync, the checksum, and what the checksum covers (R68). -/
theorem buildFrame_eq {p : Params} (table : p.consts = tableConsts) (mtype : Byte) (payload : Buffer) :
    let body := mtype :: BitVec.ofNat 8 payload.length :: payload
    buildFrame p mtype payload = 0xCA#8 :: 0xFE#8 :: (leBytes 2 (crc16 p body).toNat ++ body) := by
  rw [buildFrame, table]
  rfl

/-- Settles O16: the length decides the answer, and `buildFrame_eq` gives the frame's parts. -/
theorem fbuildFramesPayload : Obligations.FbuildFramesPayload := by
  intro mtype payload s table
  refine ⟨fun fits => ?_, fun long => ⟨_, if_pos long, onlyAnswers_answerIllegal s⟩⟩
  have completes : exec (.fbuild mtype payload) s = reply (.ok (.bytes (buildFrame s.params mtype payload))) s :=
    if_neg (Nat.not_lt.2 fits)
  refine ⟨_, buildFrame s.params mtype payload, completes, onlyAnswers_respond _ _, ?_⟩
  rw [buildFrame_eq table]
  refine ⟨?length, rfl, ?checksum, rfl⟩
  case length =>
    simp
    omega
  case checksum => exact leNat_leBytes_two _

/-! ### The bounds of a parse (R156) -/

theorem parseFrom_of_none {p : Params} {rest : Buffer} (stop : parseFrame p rest = none) (fuel cursor : Nat) :
    parseFrom p fuel rest cursor = ([], cursor) := by
  cases fuel with
  | zero => rfl
  | succ fuel => rw [parseFrom, stop]

theorem parseFrom_of_some {p : Params} {rest : Buffer} {r : Option Record} {n : Nat}
    (accepted : parseFrame p rest = some (r, n)) (fuel cursor : Nat) :
    parseFrom p (fuel + 1) rest cursor =
      (r.toList ++ (parseFrom p fuel (rest.drop n) (cursor + n)).1, (parseFrom p fuel (rest.drop n) (cursor + n)).2) := by
  rw [parseFrom, accepted]

/-- From a cursor on, every record took at least a header, and the cursor ends inside what was left. -/
theorem parseFrom_bounds (p : Params) (fuel : Nat) (rest : Buffer) (cursor : Nat) :
    cursor + p.consts.rspHdrLen * (parseFrom p fuel rest cursor).1.length ≤ (parseFrom p fuel rest cursor).2 ∧
      (parseFrom p fuel rest cursor).2 ≤ cursor + rest.length := by
  induction fuel generalizing rest cursor with
  | zero => simp [parseFrom]
  | succ fuel ih =>
    cases parsed : parseFrame p rest with
    | none => simp [parseFrom_of_none parsed]
    | some accepted =>
      obtain ⟨r, n⟩ := accepted
      obtain ⟨header, inside⟩ := parseFrame_length p rest r n parsed
      obtain ⟨lower, upper⟩ := ih (rest.drop n) (cursor + n)
      have one : p.consts.rspHdrLen * r.toList.length ≤ n :=
        (Nat.mul_le_mul_left _ (Option.length_toList_le)).trans ((Nat.mul_one _).trans_le header)
      rw [List.length_drop] at upper
      rw [parseFrom_of_some parsed, List.length_append, Nat.mul_add]
      omega

/-- Settles O17: `parseFrom_bounds` from the start of an accepted delivery. -/
theorem fparseAnswersWithinBounds : Obligations.FparseAnswersWithinBounds := by
  intro buf s table
  refine ⟨fun accepted => ⟨_, rfl, ?_, ?_⟩, fun n rxMax longer => ⟨_, rfl, ?_⟩⟩
  · have delivery : parseDelivery s.params buf = parseFrames s.params buf := by
      rw [parseDelivery, received_of_le _ _ accepted]
    rw [delivery]
    exact onlyAnswers_respond _ _
  · have header : s.params.consts.rspHdrLen = 7 := by rw [table]; rfl
    have bounds := parseFrom_bounds s.params (buf.length + 1) buf 0
    rwa [header, Nat.zero_add, Nat.zero_add] at bounds
  · have dropped : parseDelivery s.params buf = ([], 0) := by
      rw [parseDelivery, received_of_lt _ _ n rxMax longer]
    rw [dropped]
    exact onlyAnswers_respond _ _

/-! ### What the parser accepts (R156, R158) -/

/-- A frame the parser can accept: a recognised type, and a payload whose length a byte holds (R69, R87). -/
structure ResponseParts.Valid (p : Params) (f : ResponseParts) : Prop where
  recognised : f.mtype ∈ p.messageTypes
  fits : f.payload.length ≤ 255

/-- The message of a response frame, which the checksum covers (R69, R152). -/
def ResponseParts.body (f : ResponseParts) : Buffer :=
  f.mtype :: f.success :: BitVec.ofNat 8 f.payload.length :: f.payload

theorem responseFrame_eq {p : Params} (table : p.consts = tableConsts) (f : ResponseParts) :
    responseFrame p f = 0xCA#8 :: 0xFE#8 :: (leBytes 2 (crc16 p f.body).toNat ++ f.body) := by
  rw [responseFrame, table]
  rfl

@[simp] theorem responseFrame_length (p : Params) (f : ResponseParts) :
    (responseFrame p f).length = 7 + f.payload.length := by
  simp [responseFrame]
  omega

theorem parseFrame_of_short {p : Params} (table : p.consts = tableConsts) {rest : Buffer} (short : rest.length < 7) :
    parseFrame p rest = none := by
  rw [parseFrame, table]
  exact if_pos short

/-- The tests of R156 on a buffer that holds a header. -/
theorem parseFrame_of_header {p : Params} (table : p.consts = tableConsts) (y0 y1 c0 c1 mtype success len : Byte)
    (rest : Buffer) :
    parseFrame p (y0 :: y1 :: c0 :: c1 :: mtype :: success :: len :: rest) =
      if y0 = 0xCA#8 ∧ y1 = 0xFE#8 ∧ mtype ∈ p.messageTypes ∧ len.toNat ≤ rest.length ∧
          (crc16 p (mtype :: success :: len :: rest.take len.toNat)).toNat = leNat [c0, c1] then
        some (decodePayload p mtype (decide (success ≠ 0#8)) (rest.take len.toNat), 7 + len.toNat)
      else none := by
  have tests : parseFrame p (y0 :: y1 :: c0 :: c1 :: mtype :: success :: len :: rest) =
      if rest.length + 7 < 7 then none
      else if y0 ≠ 0xCA#8 ∨ y1 ≠ 0xFE#8 then none
      else if mtype ∉ p.messageTypes then none
      else if rest.length + 7 < 7 + len.toNat then none
      else if (crc16 p ((mtype :: success :: len :: rest).take (7 + len.toNat - 4))).toNat ≠ leNat [c0, c1] then none
      else some (decodePayload p mtype (decide (success ≠ 0#8)) (rest.take len.toNat), 7 + len.toNat) := by
    rw [parseFrame, table]
    rfl
  have covered : 7 + len.toNat - 4 = len.toNat + 3 := by omega
  have inside : len.toNat ≤ rest.length ↔ ¬ rest.length + 7 < 7 + len.toNat := by omega
  rw [tests, covered, List.take_succ_cons, List.take_succ_cons, List.take_succ_cons, if_neg (by omega)]
  simp only [inside, ite_or, ite_and, ne_eq, ite_not]

/-- The header of a buffer that holds one, byte by byte. -/
theorem eq_header_append {buf : Buffer} (long : 7 ≤ buf.length) :
    buf = byteAt buf 0 :: byteAt buf 1 :: byteAt buf 2 :: byteAt buf 3 :: byteAt buf 4 :: byteAt buf 5 ::
      byteAt buf 6 :: buf.drop 7 := by
  have split : slice buf 0 7 ++ buf.drop 7 = buf := List.take_append_drop 7 buf
  rw [slice_eq_map buf 0 7 (by omega)] at split
  simpa [List.range_succ] using split.symm

/-- The length byte of a payload it can hold. -/
theorem ResponseParts.lengthByte {f : ResponseParts} (fits : f.payload.length ≤ 255) :
    (BitVec.ofNat 8 f.payload.length).toNat = f.payload.length :=
  Nat.mod_eq_of_lt (Nat.lt_succ_of_le fits)

/-- A valid response frame passes every test, whatever follows it (R160 (a)). -/
theorem parseFrame_responseFrame {p : Params} (table : p.consts = tableConsts) {f : ResponseParts} (valid : f.Valid p)
    (rest : Buffer) :
    parseFrame p (responseFrame p f ++ rest) = some (frameRecord p f, (responseFrame p f).length) := by
  have len := ResponseParts.lengthByte valid.fits
  have payload : (f.payload ++ rest).take f.payload.length = f.payload := List.take_left
  have whole : f.payload.length ≤ (f.payload ++ rest).length := by simp
  have checksum := (leNat_leBytes_two (crc16 p f.body)).symm
  rw [responseFrame_length, responseFrame_eq table]
  simp only [ResponseParts.body, leBytes, List.cons_append, List.nil_append]
  rw [parseFrame_of_header table, len, payload, if_pos ⟨rfl, rfl, valid.recognised, whole, checksum⟩, frameRecord]

/-- A frame is accepted exactly where a valid response frame stands, and what is taken is that frame. -/
theorem parseFrame_eq_some_iff {p : Params} (table : p.consts = tableConsts) (buf : Buffer) (r : Option Record) (n : Nat) :
    parseFrame p buf = some (r, n) ↔
      ∃ f rest, f.Valid p ∧ buf = responseFrame p f ++ rest ∧ r = frameRecord p f ∧ n = (responseFrame p f).length := by
  constructor
  · intro accepted
    rcases Nat.lt_or_ge buf.length 7 with short | long
    · rw [parseFrame_of_short table short] at accepted
      cases accepted
    obtain ⟨y0, y1, c0, c1, mtype, success, len, rest, rfl⟩ :
        ∃ y0 y1 c0 c1 mtype success len rest, buf = y0 :: y1 :: c0 :: c1 :: mtype :: success :: len :: rest :=
      ⟨_, _, _, _, _, _, _, _, eq_header_append long⟩
    rw [parseFrame_of_header table] at accepted
    obtain ⟨⟨rfl, rfl, recognised, whole, checksum⟩, taken⟩ := (Option.ite_none_right_eq_some).1 accepted
    simp only [Option.some.injEq, Prod.mk.injEq] at taken
    obtain ⟨rfl, rfl⟩ := taken
    have size : (rest.take len.toNat).length = len.toNat := List.length_take_of_le whole
    have stored : leBytes 2 (leNat [c0, c1]) = [c0, c1] := leBytes_leNat [c0, c1]
    refine ⟨⟨mtype, success, rest.take len.toNat⟩, rest.drop len.toNat, ⟨recognised, ?_⟩, ?_, rfl, ?_⟩
    · rw [size]
      omega
    · rw [responseFrame_eq table, ResponseParts.body]
      simp only [size, BitVec.ofNat_toNat, BitVec.setWidth_eq]
      rw [checksum, stored]
      simp
    · rw [responseFrame_length, size]
  · rintro ⟨f, rest, valid, rfl, rfl, rfl⟩
    exact parseFrame_responseFrame table valid rest

/-- Where no valid response frame stands, the parser stops. -/
theorem parseFrame_eq_none {p : Params} (table : p.consts = tableConsts) {buf : Buffer}
    (noFrame : ∀ f rest, f.Valid p → buf ≠ responseFrame p f ++ rest) : parseFrame p buf = none := by
  rw [Option.eq_none_iff_forall_ne_some]
  rintro ⟨r, n⟩ accepted
  obtain ⟨f, rest, valid, starts, -⟩ := (parseFrame_eq_some_iff table buf r n).1 accepted
  exact noFrame f rest valid starts

/-- Valid frames one after the other, up to where the parser stops: their records in order, and the cursor behind them. -/
theorem parseFrom_frames {p : Params} (table : p.consts = tableConsts) {fs : List ResponseParts}
    (valid : ∀ f ∈ fs, f.Valid p) {tail : Buffer} (stop : parseFrame p tail = none) (fuel cursor : Nat)
    (enough : fs.length ≤ fuel) :
    parseFrom p fuel (fs.flatMap (responseFrame p) ++ tail) cursor =
      (fs.filterMap (frameRecord p), cursor + (fs.flatMap (responseFrame p)).length) := by
  induction fs generalizing fuel cursor with
  | nil => exact parseFrom_of_none stop fuel cursor
  | cons f fs ih =>
    obtain ⟨first, later⟩ := List.forall_mem_cons.1 valid
    obtain ⟨fuel, rfl⟩ : ∃ k, fuel = k + 1 := Nat.exists_eq_add_one_of_ne_zero (by rintro rfl; simp at enough)
    have parsed := ih later fuel (cursor + (responseFrame p f).length) (Nat.le_of_succ_le_succ enough)
    rw [List.flatMap_cons, List.append_assoc, parseFrom_of_some (parseFrame_responseFrame table first _), List.drop_left,
      parsed, List.length_append, Nat.add_assoc]
    cases record : frameRecord p f <;> simp [record]

/-- The parse of valid frames and what follows them, where the parser stops at what follows (R158). -/
theorem parseFrames_of_stop {p : Params} (table : p.consts = tableConsts) {fs : List ResponseParts}
    (valid : ∀ f ∈ fs, f.Valid p) {tail : Buffer} (stop : parseFrame p tail = none) :
    parseFrames p (fs.flatMap (responseFrame p) ++ tail) =
      (fs.filterMap (frameRecord p), (fs.flatMap (responseFrame p)).length) := by
  have enough : fs.length ≤ (fs.flatMap (responseFrame p) ++ tail).length + 1 := by
    have frames : fs.length ≤ (fs.flatMap (responseFrame p)).length := by
      have each : ∀ n ∈ fs.map (fun f => (responseFrame p f).length), 1 ≤ n := by
        refine List.forall_mem_map.2 fun f _ => ?_
        rw [responseFrame_length]
        omega
      rw [List.length_flatMap]
      simpa using List.length_le_sum_of_one_le _ each
    rw [List.length_append]
    omega
  rw [parseFrames, parseFrom_frames table valid stop _ 0 enough, Nat.zero_add]

end Sys2Proof.Machine
end

section
/-! PROOFS. Unit FRAME, what the parser reads and where it stops: the record of each message type, concatenated frames, and
frames that are changed, unrecognised or cut (R155 to R160). -/

namespace Sys2Proof.Machine

/-! ### Records by type (R155, R157, R70) -/

/-- The little-endian read of four bytes, as sequence numbers and session ids are read. -/
theorem leAt_four (buf : Buffer) (a : Nat) (h : a + 4 ≤ buf.length) :
    leAt 4 buf a = (byteAt buf a).toNat + 2 ^ 8 * (byteAt buf (a + 1)).toNat + 2 ^ 16 * (byteAt buf (a + 2)).toNat +
      2 ^ 24 * (byteAt buf (a + 3)).toNat := by
  rw [leAt, slice_eq_map buf a 4 h]
  simp [List.range_succ, leNat]
  omega

/-- The little-endian read of two bytes, as the sample period is read. -/
theorem leAt_two (buf : Buffer) (a : Nat) (h : a + 2 ≤ buf.length) :
    leAt 2 buf a = (byteAt buf a).toNat + 2 ^ 8 * (byteAt buf (a + 1)).toNat := by
  rw [leAt, slice_eq_map buf a 2 h]
  simp [List.range_succ, leNat]

/-- A little-endian read of `n` bytes fits a word of their width. -/
theorem toNat_ofNat_leAt {n w : Nat} (buf : Buffer) (a : Nat) (width : 256 ^ n = 2 ^ w) :
    (BitVec.ofNat w (leAt n buf a)).toNat = leAt n buf a := by
  have short : (slice buf a n).length ≤ n := by simp [slice]
  have bound : leAt n buf a < 2 ^ w := by
    rw [← width]
    exact (leNat_lt _).trans_le (Nat.pow_le_pow_right (by decide) short)
  rw [BitVec.toNat_ofNat, Nat.mod_eq_of_lt bound]

/-- The types are distinct (D2), so a type is none of those tested before it. -/
theorem messageTypes_distinct {p : Params} (wf : p.wf = true) :
    p.mtSession ≠ p.mtLog ∧ (p.mtSetId ≠ p.mtLog ∧ p.mtSetColor ≠ p.mtLog ∧ p.mtSetPred ≠ p.mtLog) ∧
      (p.mtSetId ≠ p.mtSession ∧ p.mtSetColor ≠ p.mtSession ∧ p.mtSetPred ≠ p.mtSession) ∧
      p.mtOverTemp ≠ p.mtLog ∧ p.mtOverTemp ≠ p.mtSession ∧
      ¬ (p.mtOverTemp = p.mtSetId ∨ p.mtOverTemp = p.mtSetColor ∨ p.mtOverTemp = p.mtSetPred) := by
  simp only [Params.wf, Bool.and_eq_true, decide_eq_true_eq] at wf
  obtain ⟨⟨nodup, -⟩, -⟩ := wf
  simp only [Params.messageTypes, List.nodup_cons, List.mem_cons, not_or] at nodup
  grind

theorem logMinLen_ge {p : Params} (wf : p.wf = true) : 17 ≤ p.logMinLen := by
  simp only [Params.wf, Bool.and_eq_true, Bool.or_eq_true, beq_iff_eq] at wf
  obtain ⟨⟨-, minimum⟩, -⟩ := wf
  omega

section
variable {p : Params} {f : ResponseParts}

theorem frameRecord_log (h : f.mtype = p.mtLog) :
    frameRecord p f = if f.payload.length < p.logMinLen then none else
      some ⟨p.mtLog, decide (f.success ≠ 0#8),
        .log (BitVec.ofNat 32 (leAt 4 f.payload 0)) (unpackTemps (slice f.payload 4 13))⟩ := by
  rw [frameRecord, decodePayload, if_pos h]

theorem frameRecord_session (table : p.consts = tableConsts) (wf : p.wf = true) (h : f.mtype = p.mtSession) :
    frameRecord p f = if f.payload.length < 6 then none else
      some ⟨p.mtSession, decide (f.success ≠ 0#8),
        .session (BitVec.ofNat 32 (leAt 4 f.payload 0)) (BitVec.ofNat 16 (leAt 2 f.payload 4))⟩ := by
  have minimum : p.consts.sessionMinLen = 6 := by rw [table]; rfl
  obtain ⟨notLog, -⟩ := messageTypes_distinct wf
  rw [frameRecord, decodePayload, h, if_neg notLog, if_pos rfl, minimum]

theorem frameRecord_ack (wf : p.wf = true) (h : f.mtype = p.mtSetId ∨ f.mtype = p.mtSetColor ∨ f.mtype = p.mtSetPred) :
    frameRecord p f = some ⟨f.mtype, decide (f.success ≠ 0#8), .ack⟩ := by
  obtain ⟨-, ⟨idLog, colorLog, predLog⟩, ⟨idSession, colorSession, predSession⟩, -⟩ := messageTypes_distinct wf
  have notLog : f.mtype ≠ p.mtLog := by rcases h with h | h | h <;> rwa [h]
  have notSession : f.mtype ≠ p.mtSession := by rcases h with h | h | h <;> rwa [h]
  rw [frameRecord, decodePayload, if_neg notLog, if_neg notSession, if_pos h]

theorem frameRecord_overTemp (table : p.consts = tableConsts) (wf : p.wf = true) (h : f.mtype = p.mtOverTemp) :
    frameRecord p f = if f.payload.length < 1 then none else
      some ⟨p.mtOverTemp, decide (f.success ≠ 0#8), .overTemp (decide (byteAt f.payload 0 ≠ 0#8))⟩ := by
  have minimum : p.consts.overTempMinLen = 1 := by rw [table]; rfl
  obtain ⟨-, -, -, notLog, notSession, notAck⟩ := messageTypes_distinct wf
  rw [frameRecord, decodePayload, h, if_neg notLog, if_neg notSession, if_neg notAck, if_pos rfl, minimum]

end

/-- Settles O18: a tail without a header stops the parser, so `parseFrames_of_stop` gives the parse; the record of each type
is the one `frameRecord_log` and the equations beside it give. -/
theorem fparseReadsConcatenatedFrames : Obligations.FparseReadsConcatenatedFrames := by
  refine ⟨fun p fs tail table valid short => ?parse, fun p f table wf => ⟨fun log => ?log, fun session => ?session,
    frameRecord_ack wf, fun overTemp => ?overTemp⟩⟩
  case parse =>
    exact parseFrames_of_stop table (fun f member => ⟨(valid f member).1, (valid f member).2⟩)
      (parseFrame_of_short table short)
  case log =>
    have minimum := logMinLen_ge wf
    rw [frameRecord_log log]
    refine ⟨fun short => if_pos short, fun long => ⟨_, _, if_neg (Nat.not_lt.2 long), ?_, ?_⟩⟩
    · rw [toNat_ofNat_leAt _ _ (by norm_num), leAt_four _ _ (by omega)]
    · exact decodeTemps_of_long (by rw [List.length_drop]; omega)
  case session =>
    rw [frameRecord_session table wf session]
    refine ⟨fun short => if_pos short, fun long => ⟨_, _, if_neg (Nat.not_lt.2 long), ?_, ?_⟩⟩
    · rw [toNat_ofNat_leAt _ _ (by norm_num), leAt_four _ _ (by omega)]
    · rw [toNat_ofNat_leAt _ _ (by norm_num), leAt_two _ _ (by omega)]
  case overTemp =>
    rw [frameRecord_overTemp table wf overTemp]
    refine ⟨fun empty => if_pos (by simp [empty]), fun nonempty => ?_⟩
    rw [if_neg (Nat.not_lt.2 (List.length_pos_iff.2 nonempty))]
    simp [← BitVec.toNat_inj]

/-! ### Where the parser stops (R158, R160 (b)) -/

/-- The length byte decides how long a frame is. -/
theorem responseFrame_length_eq {p : Params} {f g : ResponseParts} (hf : f.payload.length ≤ 255)
    (hg : g.payload.length ≤ 255) (same : (responseFrame p f)[6]? = (responseFrame p g)[6]?) :
    (responseFrame p f).length = (responseFrame p g).length := by
  have bytes : BitVec.ofNat 8 f.payload.length = BitVec.ofNat 8 g.payload.length := Option.some.inj same
  rw [responseFrame_length, responseFrame_length, ← ResponseParts.lengthByte hf, bytes, ResponseParts.lengthByte hg]

theorem byteAt_set_same {buf : Buffer} {k : Nat} (inside : k < buf.length) (b : Byte) : byteAt (buf.set k b) k = b := by
  simp [byteAt, inside]

/-- Changing a byte of a message keeps its CRC only if the byte stays the same. -/
theorem byteAt_eq_of_crc16_set {p : Params} (constant : p.crcPoly.getLsbD 0 = true) {buf : Buffer} {k : Nat} {b : Byte}
    (inside : k < buf.length) (same : crc16 p (buf.set k b) = crc16 p buf) : b = byteAt buf k := by
  have here : byteAt buf k = buf[k] := List.getD_eq_getElem _ _ inside
  have whole : buf = buf.take k ++ byteAt buf k :: buf.drop (k + 1) := by
    rw [here, List.getElem_cons_drop, List.take_append_drop]
  by_contra changed
  rw [List.set_eq_take_append_cons_drop, if_pos inside] at same
  exact crcSeesOneChangedByte p _ _ _ _ constant changed (same.trans (congrArg (crc16 p) whole))

/-- What stands before the message of a response frame: the sync and the checksum. -/
def ResponseParts.head (p : Params) (f : ResponseParts) : Buffer :=
  0xCA#8 :: 0xFE#8 :: leBytes 2 (crc16 p f.body).toNat

theorem responseFrame_eq_head_append {p : Params} (table : p.consts = tableConsts) (f : ResponseParts) :
    responseFrame p f = f.head p ++ f.body := responseFrame_eq table f

@[simp] theorem ResponseParts.head_length (p : Params) (f : ResponseParts) : (f.head p).length = 4 := rfl

/-- The head holds the checksum whole. -/
theorem crc16_eq_of_head_eq {p : Params} {f g : ResponseParts} (same : f.head p = g.head p) :
    crc16 p f.body = crc16 p g.body := by
  simp only [ResponseParts.head, List.cons.injEq, true_and] at same
  apply BitVec.eq_of_toNat_eq
  rw [← leNat_leBytes_two, same, leNat_leBytes_two]

/-- A response frame that is another one with one byte written holds that byte already: in the sync or the checksum, because
the message and so the checksum are the same; in the message, because the checksum is. -/
theorem byteAt_eq_of_responseFrame_set {p : Params} (table : p.consts = tableConsts)
    (constant : p.crcPoly.getLsbD 0 = true) {f g : ResponseParts} {k : Nat} {b : Byte}
    (inside : k < (responseFrame p f).length) (written : (responseFrame p f).set k b = responseFrame p g) :
    b = byteAt (responseFrame p f) k := by
  rw [responseFrame_eq_head_append table] at inside written ⊢
  rw [responseFrame_eq_head_append table, List.set_append, ResponseParts.head_length] at written
  split at written
  case isTrue early =>
    obtain ⟨head, body⟩ := List.append_inj written (by simp)
    have unchanged : (f.head p).set k b = f.head p := by rw [head, ResponseParts.head, ResponseParts.head, body]
    calc b = byteAt ((f.head p).set k b) k := (byteAt_set_same early b).symm
      _ = byteAt (f.head p) k := by rw [unchanged]
      _ = byteAt (f.head p ++ f.body) k := (List.getD_append _ _ _ _ early).symm
  case isFalse late =>
    obtain ⟨head, body⟩ := List.append_inj written (by simp)
    rw [List.length_append, ResponseParts.head_length] at inside
    calc b = byteAt f.body (k - 4) :=
          byteAt_eq_of_crc16_set constant (by omega) (by rw [body, crc16_eq_of_head_eq head])
      _ = byteAt (f.head p ++ f.body) k := (List.getD_append_right (f.head p) f.body _ k (Nat.not_lt.1 late)).symm

/-- A frame with one byte other than its length byte changed is no frame, whatever follows it (R160 (b)). -/
theorem no_frame_of_changed {p : Params} (table : p.consts = tableConsts) (constant : p.crcPoly.getLsbD 0 = true)
    {f g : ResponseParts} (hf : f.payload.length ≤ 255) (hg : g.payload.length ≤ 255) {k : Nat} {b : Byte}
    (inside : k < (responseFrame p f).length) (notLength : k ≠ 6) (changed : b ≠ byteAt (responseFrame p f) k)
    (rest after : Buffer) : (responseFrame p f).set k b ++ rest ≠ responseFrame p g ++ after := by
  intro frame
  have sixth : (responseFrame p f)[6]? = (responseFrame p g)[6]? := by
    have bytes := congrArg (fun bs : Buffer => bs[6]?) frame
    rwa [List.getElem?_append_left (by simp; omega), List.getElem?_append_left (by simp; omega),
      List.getElem?_set_ne notLength] at bytes
  obtain ⟨written, -⟩ := List.append_inj frame (by rw [List.length_set, responseFrame_length_eq hf hg sixth])
  exact changed (byteAt_eq_of_responseFrame_set table constant inside written)

/-- Where a frame stands, its type is the type read, so a frame of an unrecognised type is none. -/
theorem mtype_eq_of_append_eq {p : Params} {f g : ResponseParts} {rest after : Buffer}
    (frame : responseFrame p f ++ rest = responseFrame p g ++ after) : f.mtype = g.mtype :=
  Option.some.inj (congrArg (fun bs : Buffer => bs[4]?) frame)

/-- A frame that is cut short is no frame: its length byte, when still there, asks for more (R158). -/
theorem no_frame_of_cut {p : Params} {f g : ResponseParts} (hf : f.payload.length ≤ 255) (hg : g.payload.length ≤ 255)
    {k : Nat} (short : k < (responseFrame p f).length) (after : Buffer) :
    (responseFrame p f).take k ≠ responseFrame p g ++ after := by
  intro frame
  have sizes := congrArg List.length frame
  rw [List.length_take, List.length_append] at sizes
  have header : 6 < (responseFrame p g).length := by
    rw [responseFrame_length]
    omega
  have sixth : (responseFrame p f)[6]? = (responseFrame p g)[6]? := by
    have bytes := congrArg (fun bs : Buffer => bs[6]?) frame
    rwa [List.getElem?_take_of_lt (by omega), List.getElem?_append_left header] at bytes
  have same := responseFrame_length_eq hf hg sixth
  omega

/-- Settles O19: none of the three is a valid response frame, so the parser stops there. -/
theorem fparseRejectsCorruptedFrame : Obligations.FparseRejectsCorruptedFrame := by
  intro p fs f bad rest table valid hf corrupted
  refine parseFrames_of_stop table (fun g member => ⟨(valid g member).1, (valid g member).2⟩) ?_
  refine parseFrame_eq_none table fun g after isValid frame => ?_
  rcases corrupted with ⟨constant, k, b, inside, notLength, changed, rfl⟩ | ⟨unrecognised, rfl⟩ | ⟨rfl, k, short, rfl⟩
  · exact no_frame_of_changed table constant hf isValid.fits inside notLength changed rest after frame
  · exact unrecognised (mtype_eq_of_append_eq frame ▸ isValid.recognised)
  · rw [List.append_nil] at frame
    exact no_frame_of_cut hf isValid.fits short after frame

end Sys2Proof.Machine
end

section
/-! PROOFS. Unit LOG, the session and the store (R181 to R184, R192): what appending a point of the current session makes of
each address of the store, inside its bounds and at them. -/

namespace Sys2Proof.Machine

/-! ### The session and the flag (R181, R192) -/

/-- Settles O20: only the request's flag depends on the session before. -/
theorem lsessSetsSession : Obligations.LsessSetsSession := by
  intro id periodMs s
  refine ⟨_, rfl, rfl, rfl, rfl, rfl, ?other, ?same, rfl, rfl, rfl, rfl, rfl, ?frame⟩
  case other =>
    rintro (unset | different)
    · simp [unset]
    · simp [different]
  case same =>
    intro valid known
    simp [valid, known]
  case frame => and_intros <;> rfl

/-- Settles O27: LUTD is a query. -/
theorem lutdReportsFlag : Obligations.LutdReportsFlag :=
  fun _ => ⟨_, rfl, onlyAnswers_respond _ _⟩

/-! ### The current log (R28) -/

theorem curLog_of_session {s : State} (valid : s.sessValid = true) : curLog s = (s.logs.log s.sessId).getD [] :=
  if_pos valid

theorem stored_iff_hasSeq (s : State) (n : Nat) : Stored s n ↔ TempLog.hasSeq (curLog s) n = true :=
  (TempLog.hasSeq_iff _ _).symm

/-- A number is stored exactly when the address of the current session and that number reads something. -/
theorem stored_iff_read {s : State} (valid : s.sessValid = true) (seq : U32) :
    Stored s seq.toNat ↔ (s.logs.read s.sessId seq).isSome = true := by
  rw [stored_iff_hasSeq, curLog_of_session valid, ← TempLog.read_isSome_iff, Memory.read]
  cases s.logs.log s.sessId <;> rfl

/-! ### Appending a point of the current session (R182, R183) -/

/-- A log at LOG_DEPTH takes no further point. -/
theorem Memory.append_of_log_full (p : Params) (id : U32) (e : LogEntry) (m : Memory)
    (full : ¬ within p.logDepth (((m.log id).getD []).length + 1) = true) : Memory.append p id e m = m := by
  unfold Memory.append
  cases known : m.log id with
  | none =>
    have full : ¬ within p.logDepth 1 = true := by simpa [known] using full
    simp [full]
  | some l =>
    have full : ¬ within p.logDepth (l.length + 1) = true := by simpa [known] using full
    simp [full]

/-- A store at MAX_SESSIONS takes no point of a session without a log. -/
theorem Memory.append_of_sessions_full (p : Params) (id : U32) (e : LogEntry) (m : Memory) (unknown : m.log id = none)
    (full : ¬ within p.maxSessions (m.length + 1) = true) : Memory.append p id e m = m := by
  simp [Memory.append, unknown, full]

section Append

variable {s : State} (seq : U32) (temps : TempSet)

theorem appendPoint_logs_of_session (valid : s.sessValid = true) :
    (appendPoint seq temps s).logs = Memory.append s.params s.sessId ⟨seq, temps⟩ s.logs := by
  rw [appendPoint_logs, if_pos valid]

theorem appendPoint_logs_of_no_session (invalid : s.sessValid = false) : (appendPoint seq temps s).logs = s.logs := by
  rw [appendPoint_logs, invalid]
  rfl

/-- At LOG_DEPTH the point is dropped. -/
theorem appendPoint_logs_of_log_full {b : Nat} (bound : s.params.logDepth = some b) (full : b ≤ (curLog s).length) :
    (appendPoint seq temps s).logs = s.logs := by
  cases valid : s.sessValid with
  | false => exact appendPoint_logs_of_no_session seq temps valid
  | true =>
    rw [curLog_of_session valid] at full
    rw [appendPoint_logs_of_session seq temps valid]
    refine Memory.append_of_log_full _ _ _ _ fun room => ?_
    have := (within_iff _ _).1 room b bound
    omega

/-- At MAX_SESSIONS the point of a session without a log is dropped. -/
theorem appendPoint_logs_of_sessions_full {b : Nat} (bound : s.params.maxSessions = some b)
    (unknown : s.logs.log s.sessId = none) (full : b ≤ s.logs.length) : (appendPoint seq temps s).logs = s.logs := by
  cases valid : s.sessValid with
  | false => exact appendPoint_logs_of_no_session seq temps valid
  | true =>
    rw [appendPoint_logs_of_session seq temps valid]
    refine Memory.append_of_sessions_full _ _ _ _ unknown fun room => ?_
    have := (within_iff _ _).1 room b bound
    omega

/-- With room in the store a new point is stored. -/
theorem appendPoint_read_new (valid : s.sessValid = true) (room : HasRoom s) (new : s.logs.read s.sessId seq = none) :
    (appendPoint seq temps s).logs.read s.sessId seq = some temps := by
  obtain ⟨depth, sessions⟩ := room
  rw [appendPoint_logs_of_session seq temps valid]
  refine Memory.read_append_new s.params s.sessId ⟨seq, temps⟩ s.logs (fun unknown => ?_) ?_ new
  · refine (within_iff _ _).2 fun b bound => ?_
    exact (sessions b bound).resolve_left fun known => known unknown
  · rw [← curLog_of_session valid]
    exact (within_iff _ _).2 depth

/-- Every address but that of the point reads as before. -/
theorem appendPoint_read_other {id q : U32} (other : id ≠ s.sessId ∨ q ≠ seq) :
    (appendPoint seq temps s).logs.read id q = s.logs.read id q := by
  rw [appendPoint_logs]
  split
  · exact Memory.read_append_other _ _ _ _ _ _ other
  · rfl

/-- With room in the store the point's number is stored afterwards, whether it was before or not. -/
theorem stored_appendPoint (valid : s.sessValid = true) (room : HasRoom s) :
    Stored (appendPoint seq temps s) seq.toNat := by
  rw [stored_iff_read (by simpa using valid), appendPoint_sessId]
  cases before : s.logs.read s.sessId seq with
  | none => rw [appendPoint_read_new seq temps valid room before]; rfl
  | some x => rw [appendPoint_read_stored seq temps s s.sessId seq x before]; rfl

end Append

/-- Retirement by arrival: the request stays out unless the frame carries `req_max` (R189). -/
theorem retire_reqOut_iff (seq : U32) (s : State) :
    (retire seq s).reqOut = true ↔ s.reqOut = true ∧ seq ≠ s.reqMax := by
  by_cases last : seq = s.reqMax <;> simp [last]

/-- Settles O21: the store is the appended one, and `retire` writes the request's flag alone. -/
theorem lframeRecordsAndRetires : Obligations.LframeRecordsAndRetires := by
  intro seq r s
  refine ⟨respond (.ok .empty) (retire seq (appendPoint seq (maskTemps r) s)), rfl, by simp [Answers], ?noSession,
    ?logFull, ?sessionsFull, ?stored, ?new, ?other, ?retired, ?frame⟩
  case noSession => exact fun invalid => appendPoint_logs_of_no_session _ _ invalid
  case logFull => exact fun b bound full => appendPoint_logs_of_log_full _ _ bound full
  case sessionsFull => exact fun b bound unknown full => appendPoint_logs_of_sessions_full _ _ bound unknown full
  case stored => exact fun x stored => appendPoint_read_stored _ _ _ _ _ _ stored
  case new => exact fun valid room new => appendPoint_read_new _ _ valid room new
  case other => exact fun id q other => appendPoint_read_other _ _ other
  case retired => simpa using retire_reqOut_iff seq (appendPoint seq (maskTemps r) s)
  case frame =>
    rw [retire_appendPoint_eq]
    and_intros <;> rfl

end Sys2Proof.Machine
end

section
/-! PROOFS. Unit LOG, the gap and its request (R185 to R188): the search finds the least missing number, the edge rule in
terms of the numbers stored, the bound and the bytes of a request, and what a status answers. -/

namespace Sys2Proof.Machine

/-! ### The gap search (R185) -/

/-- The search ends at the only number that is missing with all before it stored. -/
theorem leastFrom_eq {l : TempLog} {n m : Nat} (le : n ≤ m) (missing : TempLog.hasSeq l m = false)
    (before : ∀ k, n ≤ k → k < m → TempLog.hasSeq l k = true) : leastFrom l.length n l = m := by
  obtain ⟨start, stored⟩ := leastFrom_stored l.length n l
  have found := leastFrom_missing n l
  rcases Nat.lt_trichotomy (leastFrom l.length n l) m with lt | eq | gt
  · simp [before _ start lt] at found
  · exact eq
  · simp [stored m le gt] at missing

theorem firstMissing_of_empty (l : TempLog) {min max : U32} (empty : max.toNat < min.toNat) :
    firstMissing l min max = none :=
  if_pos empty

theorem firstMissing_of_covered {l : TempLog} {min max : U32}
    (covered : ∀ n, min.toNat ≤ n → n ≤ max.toNat → TempLog.hasSeq l n = true) :
    firstMissing l min max = none := by
  have beyond : max.toNat < leastFrom l.length min.toNat l := by
    by_contra inside
    have stored := covered _ (leastFrom_stored l.length min.toNat l).1 (Nat.not_lt.1 inside)
    simp [leastFrom_missing] at stored
  simp [firstMissing, beyond]

/-- The least missing number of the range is the answer, unless the edge rule hides it. -/
theorem firstMissing_of_least {l : TempLog} {min max m : U32} (lower : min.toNat ≤ m.toNat)
    (upper : m.toNat ≤ max.toNat) (missing : TempLog.hasSeq l m.toNat = false)
    (before : ∀ k, min.toNat ≤ k → k < m.toNat → TempLog.hasSeq l k = true) :
    firstMissing l min max = if l ≠ [] ∧ m = max ∧ greatestSeq l + 1 = max.toNat then none else some m := by
  have range : ¬ max.toNat < min.toNat := by omega
  simp only [firstMissing, leastFrom_eq lower missing before, range, Nat.not_lt.2 upper, if_false, BitVec.toNat_inj,
    BitVec.ofNat_toNat, BitVec.setWidth_eq]

/-- The last stored number is `max - 1`, in terms of the numbers stored. -/
theorem last_precedes_iff (s : State) (max : Nat) :
    curLog s ≠ [] ∧ greatestSeq (curLog s) + 1 = max ↔
      (∃ n, Stored s n ∧ n + 1 = max) ∧ ∀ n, Stored s n → n + 1 ≤ max := by
  obtain ⟨bound, attained⟩ := greatestSeq_spec (curLog s)
  constructor
  · rintro ⟨nonempty, rfl⟩
    refine ⟨⟨_, attained nonempty, rfl⟩, ?_⟩
    rintro n ⟨e, member, rfl⟩
    exact Nat.succ_le_succ (bound e member)
  · rintro ⟨⟨n, ⟨e, member, rfl⟩, last⟩, upper⟩
    have nonempty : curLog s ≠ [] := List.ne_nil_of_mem member
    have top := upper _ (attained nonempty)
    have below := bound e member
    exact ⟨nonempty, by omega⟩

/-- Settles O22: the three reasons for ABSENT, and the least missing number otherwise. -/
theorem lmissFindsLeastMissing : Obligations.LmissFindsLeastMissing := by
  intro min max s
  refine ⟨fun noneMissing => replyOption_none ?_ s, fun m lower upper missing before => ?_⟩
  · rcases noneMissing with empty | covered
    · exact firstMissing_of_empty _ empty
    · exact firstMissing_of_covered fun n h1 h2 => (stored_iff_hasSeq s n).1 (covered n h1 h2)
  · have search := firstMissing_of_least lower upper (by simpa [stored_iff_hasSeq] using missing)
      fun n h1 h2 => (stored_iff_hasSeq s n).1 (before n h1 h2)
    have edge : curLog s ≠ [] ∧ m = max ∧ greatestSeq (curLog s) + 1 = max.toNat ↔
        m = max ∧ (∃ n, Stored s n ∧ n + 1 = max.toNat) ∧ ∀ n, Stored s n → n + 1 ≤ max.toNat := by
      rw [← last_precedes_iff]
      tauto
    exact ⟨fun hidden => replyOption_none (search.trans (if_pos (edge.2 hidden))) s,
      fun shown => replyOption_some (search.trans (if_neg (mt edge.1 shown))) s⟩

/-! ### The request (R186, R188) -/

theorem capRequest_of_long {p : Params} {m max : U32} (positive : 0 < p.consts.maxLogRequest)
    (long : max.toNat - m.toNat ≥ p.consts.maxLogRequest) :
    (capRequest p m max).toNat = m.toNat + p.consts.maxLogRequest - 1 := by
  have := max.isLt
  rw [capRequest, if_pos long, BitVec.toNat_ofNat, Nat.mod_eq_of_lt (by omega)]

theorem capRequest_of_short {p : Params} {m max : U32} (short : max.toNat - m.toNat < p.consts.maxLogRequest) :
    capRequest p m max = max :=
  if_neg (Nat.not_le.2 short)

/-- Settles O23: the two cases of the bound, at the 500 records that R5 prints. -/
theorem capRequestBoundsSpan : Obligations.CapRequestBoundsSpan := by
  intro p m max table le
  have records : p.consts.maxLogRequest = 500 := by rw [table]; rfl
  have long (span : max.toNat - m.toNat ≥ 500) : (capRequest p m max).toNat = m.toNat + 500 - 1 := by
    rw [capRequest_of_long (by omega) (by omega), records]
  have short (span : max.toNat - m.toNat < 500) : capRequest p m max = max := capRequest_of_short (by omega)
  refine ⟨long, short, ?_⟩
  rcases Nat.lt_or_ge (max.toNat - m.toNat) 500 with span | span
  · rw [short span]
    omega
  · rw [long span]
    omega

/-- The number of a 32-bit word's four bytes is the word (R7). -/
theorem leNat_leBytes_four (x : U32) : leNat (leBytes 4 x.toNat) = x.toNat := by
  have bound : x.toNat < 256 ^ 4 := x.isLt
  rw [leNat_leBytes, Nat.mod_eq_of_lt bound]

/-- Settles O25: a request frame with the two bounds as its payload. -/
theorem backfillRequestOnTheWire : Obligations.BackfillRequestOnTheWire := by
  intro p lo hi table frame
  have parts : frame = _ := buildFrame_eq table p.mtLog (leBytes 4 lo.toNat ++ leBytes 4 hi.toNat)
  rw [parts]
  exact ⟨by simp, rfl, leNat_leBytes_two _, rfl, leNat_leBytes_four lo, leNat_leBytes_four hi⟩

/-! ### The evaluation of a status (R187) -/

section Evaluation

variable {min max : U32} {s t : State}

theorem evaluateGap_completes (min max : U32) (s : State) : ∃ t, evaluateGap min max s = .next t := by
  unfold evaluateGap
  split
  · exact ⟨_, rfl⟩
  · split <;> exact ⟨_, rfl⟩

/-- Without a gap the request is retired. -/
theorem evaluateGap_of_covered (h : evaluateGap min max s = .next t) (covered : firstMissing (curLog s) min max = none) :
    t = respond (.ok (.status true none)) { s with upToDate := true, reqOut := false } := by
  rcases evaluateGap_cases _ _ _ _ h with ⟨-, eq⟩ | ⟨m, gap, -⟩ | ⟨m, gap, -⟩
  · exact eq
  all_goals simp [covered] at gap

/-- With a gap and a request outstanding nothing is emitted. -/
theorem evaluateGap_of_pending (h : evaluateGap min max s = .next t) {m : U32}
    (gap : firstMissing (curLog s) min max = some m) (out : s.reqOut = true) :
    t = respond (.ok (.status false none)) { s with upToDate := false } := by
  rcases evaluateGap_cases _ _ _ _ h with ⟨covered, -⟩ | ⟨_, -, -, eq⟩ | ⟨_, -, idle, -⟩
  · simp [gap] at covered
  · exact eq
  · simp [out] at idle

/-- With a gap and no request outstanding the capped request is emitted and recorded. -/
theorem evaluateGap_of_idle (h : evaluateGap min max s = .next t) {m : U32}
    (gap : firstMissing (curLog s) min max = some m) (idle : s.reqOut = false) :
    t = respond (.ok (.status false (some (m, capRequest s.params m max))))
      (transmit (requestFrame s.params m (capRequest s.params m max))
        { s with upToDate := false, reqOut := true, reqMin := m, reqMax := capRequest s.params m max }) := by
  rcases evaluateGap_cases _ _ _ _ h with ⟨covered, -⟩ | ⟨_, -, out, -⟩ | ⟨n, least, -, eq⟩
  · simp [gap] at covered
  · simp [idle] at out
  · obtain rfl : n = m := by simpa [gap] using least.symm
    exact eq

/-- The evaluation writes neither the store nor anything outside the request, the flag and TX. -/
theorem evaluateGap_frame (h : evaluateGap min max s = .next t) :
    t.logs = s.logs ∧ t.sessValid = s.sessValid ∧ t.sessId = s.sessId ∧ t.sessPeriodMs = s.sessPeriodMs ∧
      t.timeMs = s.timeMs ∧ KeepsArb s t ∧ KeepsSmooth s t ∧ t.pub = s.pub ∧ KeepsOutside s t := by
  rcases evaluateGap_cases _ _ _ _ h with ⟨-, rfl⟩ | ⟨_, -, -, rfl⟩ | ⟨_, -, -, rfl⟩ <;>
    and_intros <;> rfl

/-- A request that is answered starts at the missing number that was found. -/
theorem evaluateGap_requested (h : evaluateGap min max s = .next t) {up : Bool} {m hi : U32}
    (answer : Answers (.ok (.status up (some (m, hi)))) s t) : firstMissing (curLog s) min max = some m := by
  rcases evaluateGap_cases _ _ _ _ h with ⟨-, rfl⟩ | ⟨_, -, -, rfl⟩ | ⟨n, gap, -, rfl⟩
  · simp [Answers] at answer
  · simp [Answers] at answer
  · obtain ⟨-, rfl, -⟩ : false = up ∧ n = m ∧ _ = hi := by simpa [Answers] using answer
    exact gap

end Evaluation

/-! ### LSTAT (R187) -/

theorem statusLogs_of_normal (max : U32) (r : RawTemps) (s : State) :
    statusLogs max r .normal s = (appendPoint max (maskTemps r) s).logs :=
  if_pos rfl

theorem statusLogs_of_not_normal {mode : OpMode} (other : mode ≠ .normal) (max : U32) (r : RawTemps) (s : State) :
    statusLogs max r mode s = s.logs :=
  if_neg other

/-- What holds of the store as it was and of the store with the point appended holds of the store after LSTAT. -/
theorem statusLogs_of_both {P : Memory → Prop} {max : U32} {r : RawTemps} {s : State} (mode : OpMode) (kept : P s.logs)
    (appended : P (appendPoint max (maskTemps r) s).logs) : P (statusLogs max r mode s) := by
  unfold statusLogs
  split
  · exact appended
  · exact kept

/-- The state that LSTAT evaluates: its log store alone may be written. -/
theorem recorded_eq (max : U32) (r : RawTemps) (mode : OpMode) (s : State) :
    (if mode = .normal then appendPoint max (maskTemps r) s else s) = { s with logs := statusLogs max r mode s } := by
  unfold statusLogs
  split
  · exact appendPoint_eq _ _ _
  · rfl

/-- Settles O24: the evaluation's three outcomes, on the store that the recording left. -/
theorem lstatEvaluatesGap : Obligations.LstatEvaluatesGap := by
  intro min max r mode s s1
  have recorded : s1 = { s with logs := statusLogs max r mode s } := recorded_eq max r mode s
  obtain ⟨t, h⟩ := evaluateGap_completes min max s1
  have runs : exec (.lstat min max r mode) s = .next t := h
  clear_value s1
  subst recorded
  obtain ⟨logs, frame⟩ := evaluateGap_frame h
  change t.logs = statusLogs max r mode s at logs
  refine ⟨t, runs, ?covered, ?pending, ?idle, logs, ?otherMode, ?noSession, ?new, ?other, ?stored, frame⟩
  case covered =>
    intro covered
    obtain rfl := evaluateGap_of_covered h covered
    exact ⟨rfl, rfl, rfl, rfl, rfl, rfl⟩
  case pending =>
    intro m gap out
    obtain rfl := evaluateGap_of_pending h gap out
    exact ⟨rfl, out, rfl, rfl, rfl, rfl⟩
  case idle =>
    intro m gap idle
    obtain rfl := evaluateGap_of_idle h gap idle
    exact ⟨rfl, rfl, rfl, rfl, rfl, rfl⟩
  case otherMode => exact fun other => logs.trans (statusLogs_of_not_normal other max r s)
  all_goals rw [logs]
  case noSession =>
    intro invalid
    exact statusLogs_of_both (P := (· = s.logs)) mode rfl (appendPoint_logs_of_no_session _ _ invalid)
  case new =>
    rintro rfl valid room new
    rw [statusLogs_of_normal]
    exact appendPoint_read_new _ _ valid room new
  case other =>
    intro id q other
    exact statusLogs_of_both (P := fun m => m.read id q = s.logs.read id q) mode rfl (appendPoint_read_other _ _ other)
  case stored =>
    intro id q x stored
    exact statusLogs_of_both (P := fun m => m.read id q = some x) mode stored (appendPoint_read_stored _ _ _ _ _ _ stored)

/-- Settles O26: `max` has just been stored, and a request starts at a number that is not. -/
theorem lstatNormalNeverMissesMax : Obligations.LstatNormalNeverMissesMax := by
  intro min max m hi r s t up valid room h answer
  have runs : evaluateGap min max (appendPoint max (maskTemps r) s) = .next t := h
  have gap := evaluateGap_requested runs (by simpa [Answers] using answer)
  obtain ⟨-, upper, missing, -⟩ := firstMissing_some _ _ _ _ gap
  refine Nat.lt_of_le_of_ne upper fun last => ?_
  have stored := (stored_iff_hasSeq _ _).1 (stored_appendPoint max (maskTemps r) valid room)
  rw [← last, missing] at stored
  cases stored

end Sys2Proof.Machine
end

section
/-! PROOFS. Unit ARB (R211 to R215): which candidates win, what IRQRY, IRACC and IRRD leave at a `now` that does not run
backwards, and what an accepted candidate decides about the next one. -/

namespace Sys2Proof.Machine

/-! ### At a time that does not run backwards -/

/-- At the table's TIME_W the operand `now` is the time itself (R287). -/
theorem atTime_of_table {now : U64} {s : State} (k : State → Answer) (consts : ConstInv s)
    (forward : s.timeMs ≤ now.toNat) : atTime now s k = k { s with timeMs := now.toNat } := by
  have same := clock_of_table s.params now consts
  rw [atTime_of_le now s k (same ▸ forward), same]

/-- A response given right after the time is written: what a query that carries `now` leaves (R66). -/
theorem keepsAllButTime_respond (r : Response) (now : Nat) (s : State) :
    let t := respond r { s with timeMs := now }
    Answers r s t ∧ t.timeMs = now ∧ KeepsAllButTime s t := by
  obtain ⟨answers, keeps, time, -⟩ := onlyAnswers_respond r { s with timeMs := now }
  exact ⟨answers, time, keeps⟩

/-- One operation gives one response, so its response is determined. -/
theorem Answers.unique {r r' : Response} {s t : State} (h : Answers r s t) (h' : Answers r' s t) : r = r' := by
  simpa using h.symm.trans h'

/-! ### The verdict (R211, R212) -/

/-- The candidate is direct, or the lockout window is over, or the holder is relayed over no fewer hops. -/
def Wins (hopPresent : Bool) (hop : Byte) (now : Nat) (s : State) : Prop :=
  hopPresent = false ∨ ¬ (s.irValid = true ∧ now < s.irTs + 1000) ∨
    (s.irHopPresent = true ∧ hop.toNat ≤ s.irHop.toNat)

theorem shouldAccept_iff_wins {s : State} (hopPresent : Bool) (hop : Byte) (now : Nat) (consts : ConstInv s) :
    shouldAccept hopPresent hop now s = true ↔ Wins hopPresent hop now s := by
  have lockout : s.params.consts.irLockoutMs = 1000 := by rw [consts]; rfl
  rw [shouldAccept_iff hopPresent hop now s (by omega), lockout, Wins]

/-- Inside the window a direct holder, or one over fewer hops, keeps a relayed candidate out. -/
theorem not_wins_of_lockout {s : State} {hop : Byte} {now : Nat} (valid : s.irValid = true) (inside : now < s.irTs + 1000)
    (holder : s.irHopPresent = false ∨ s.irHop.toNat < hop.toNat) : ¬ Wins true hop now s := by
  rintro (direct | free | ⟨relayed, le⟩)
  · cases direct
  · exact free ⟨valid, inside⟩
  · rcases holder with direct | lt
    · simp [direct] at relayed
    · omega

theorem irqry_of_forward {s : State} (hopPresent : Bool) (hop : Byte) {now : U64} (consts : ConstInv s)
    (forward : s.timeMs ≤ now.toNat) :
    exec (.irqry hopPresent hop now) s =
      .next (respond (.ok (.accept (shouldAccept hopPresent hop now.toNat s))) { s with timeMs := now.toNat }) := by
  simp only [exec, execIrqry, atTime_of_table _ consts forward]
  rfl

/-- Settles O28: IRQRY answers the verdict, and `shouldAccept_iff_wins` reads it. -/
theorem irqryVerdict : Obligations.IrqryVerdict := by
  intro hopPresent hop now s consts forward
  obtain ⟨answers, rest⟩ := keepsAllButTime_respond (.ok (.accept (shouldAccept hopPresent hop now.toNat s))) now.toNat s
  exact ⟨_, _, irqry_of_forward hopPresent hop consts forward, answers,
    shouldAccept_iff_wins hopPresent hop now.toNat consts, rest⟩

/-! ### The candidate (R213) -/

section Candidate

variable {s : State} (value : S32) {hopPresent : Bool} {hop : Byte} {now : U64} (consts : ConstInv s)
  (forward : s.timeMs ≤ now.toNat)

include consts in
theorem iracc_of_backward (backward : now.toNat < s.timeMs) :
    exec (.iracc value hopPresent hop now) s = .next (answerIllegal s) := by
  have before : clock s.params now < s.timeMs := by rwa [clock_of_table s.params now consts]
  simp only [exec, execIracc, atTime_of_lt now s _ before]

include consts forward

theorem iracc_of_forward :
    exec (.iracc value hopPresent hop now) s =
      if shouldAccept hopPresent hop now.toNat s then
        .next (respond (.ok (.accepted true))
          (acceptCandidate value hopPresent hop now.toNat { s with timeMs := now.toNat }))
      else .next (respond (.ok (.accepted false)) { s with timeMs := now.toNat }) := by
  simp only [exec, execIracc, atTime_of_table _ consts forward]
  rfl

theorem iracc_of_wins (wins : Wins hopPresent hop now.toNat s) :
    exec (.iracc value hopPresent hop now) s =
      .next (respond (.ok (.accepted true))
        (acceptCandidate value hopPresent hop now.toNat { s with timeMs := now.toNat })) :=
  (iracc_of_forward value consts forward).trans (if_pos ((shouldAccept_iff_wins _ _ _ consts).2 wins))

theorem iracc_of_not_wins (loses : ¬ Wins hopPresent hop now.toNat s) :
    exec (.iracc value hopPresent hop now) s =
      .next (respond (.ok (.accepted false)) { s with timeMs := now.toNat }) :=
  (iracc_of_forward value consts forward).trans (if_neg (mt (shouldAccept_iff_wins _ _ _ consts).1 loses))

end Candidate

/-- IRACC answers 1 only to a winner, at a time that does not run backwards. -/
theorem wins_of_iracc_accepted {s t : State} {value : S32} {hopPresent : Bool} {hop : Byte} {now : U64}
    (consts : ConstInv s) (h : exec (.iracc value hopPresent hop now) s = .next t)
    (accepted : Answers (.ok (.accepted true)) s t) : s.timeMs ≤ now.toNat ∧ Wins hopPresent hop now.toNat s := by
  rcases Nat.lt_or_ge now.toNat s.timeMs with backward | forward
  · rw [iracc_of_backward value consts backward] at h
    cases h
    cases accepted.unique (onlyAnswers_answerIllegal s).1
  · refine ⟨forward, ?_⟩
    by_contra loses
    rw [iracc_of_not_wins value consts forward loses] at h
    cases h
    cases accepted.unique (keepsAllButTime_respond _ _ s).1

/-- Settles O29: the registers that `acceptCandidate_eq` lists are the only ones written besides the time. -/
theorem iraccStoresAccepted : Obligations.IraccStoresAccepted := by
  intro value hopPresent hop now s consts forward wins
  refine ⟨_, iracc_of_wins value consts forward wins, ?_⟩
  rw [acceptCandidate_eq]
  obtain ⟨answers, time, logs, -, smooth, emits, outside⟩ :=
    keepsAllButTime_respond (.ok (.accepted true)) now.toNat s
  exact ⟨answers, rfl, rfl, rfl, rfl, fun relayed => if_pos relayed, time, logs, smooth, emits, outside⟩

/-- Settles O30: such a candidate does not win, by `not_wins_of_lockout`. -/
theorem iraccDiscardsRejected : Obligations.IraccDiscardsRejected := by
  intro value hop now s consts forward valid inside holder
  exact ⟨_, iracc_of_not_wins value consts forward (not_wins_of_lockout valid inside holder),
    keepsAllButTime_respond _ _ s⟩

/-! ### The value shown (R214) -/

theorem irVisible_iff_fresh {s : State} (now : Nat) (consts : ConstInv s) :
    irVisible now s = true ↔ s.irValid = true ∧ now < s.irTs + 5000 := by
  have stale : s.params.consts.irStaleMs = 5000 := by rw [consts]; rfl
  rw [irVisible_iff now s (by omega), stale]

theorem irrd_of_forward {s : State} {now : U64} (consts : ConstInv s) (forward : s.timeMs ≤ now.toNat) :
    exec (.irrd now) s =
      if irVisible now.toNat s then .next (respond (.ok (.value s.irValue)) { s with timeMs := now.toNat })
      else .next (respond .absent { s with timeMs := now.toNat }) := by
  simp only [exec, execIrrd, atTime_of_table _ consts forward]
  rfl

/-- Settles O31: the two branches of IRRD, told apart by `irVisible_iff_fresh`. -/
theorem irrdShowsFreshValue : Obligations.IrrdShowsFreshValue := by
  intro now s consts forward
  have fresh := irVisible_iff_fresh now.toNat consts
  have runs := irrd_of_forward consts forward
  refine ⟨fun valid young => ?_, fun gone => ?_⟩
  · exact ⟨_, runs.trans (if_pos (fresh.2 ⟨valid, young⟩)), keepsAllButTime_respond _ _ s⟩
  · have hidden : ¬ irVisible now.toNat s = true := by
      rw [fresh]
      rintro ⟨valid, young⟩
      rcases gone with invalid | old
      · simp [invalid] at valid
      · omega
    exact ⟨_, runs.trans (if_neg hidden), keepsAllButTime_respond _ _ s⟩

/-! ### One candidate after another (R215) -/

/-- Settles O33: an accepted candidate holds the registers with its own time, so O29 and O30 decide about the next one. -/
theorem arbitrationByHopAndWindow : Obligations.ArbitrationByHopAndWindow := by
  intro v w h1 h2 p1 n1 n2 s t consts h accepted le
  obtain ⟨forward, wins⟩ := wins_of_iracc_accepted consts h accepted
  obtain ⟨t', h', -, valid, -, ts, present, hop, time, -, -, -, params, -⟩ :=
    iraccStoresAccepted v p1 h1 n1 s consts forward wins
  obtain rfl : t' = t := by simpa using h'.symm.trans h
  have consts' : ConstInv t' := by rw [ConstInv, params, consts]
  have forward' : t'.timeMs ≤ n2.toNat := time ▸ le
  refine ⟨?direct, fun inside better => ?inside, fun outside => ?outside⟩
  case direct =>
    obtain ⟨u, run, answers, -⟩ := iraccStoresAccepted w false h2 n2 t' consts' forward' (.inl rfl)
    exact ⟨u, run, answers⟩
  case inside =>
    have holder : t'.irHopPresent = false ∨ t'.irHop.toNat < h2.toNat := by
      cases p1 with
      | false => exact .inl present
      | true => exact .inr (by simpa [hop rfl] using better)
    obtain ⟨u, run, answers, -, -, arb, -⟩ :=
      iraccDiscardsRejected w h2 n2 t' consts' forward' valid (ts ▸ inside) holder
    exact ⟨u, run, answers, arb⟩
  case outside =>
    have free : ¬ (t'.irValid = true ∧ n2.toNat < t'.irTs + 1000) := by
      rintro ⟨-, inside⟩
      omega
    obtain ⟨u, run, answers, -, -, -, -, stored, -⟩ :=
      iraccStoresAccepted w true h2 n2 t' consts' forward' (.inr (.inl free))
    exact ⟨u, run, answers, stored rfl⟩

end Sys2Proof.Machine
end

section
/-! PROOFS. Unit SMOOTH, updates and reads (R231 to R242, R246): the seconds displayed, the three regimes of the
countdown at the table of R5, what a duplicate and a new PUPD leave, and the percentage. -/

namespace Sys2Proof.Machine

/-! ### The seconds displayed (R236) -/

theorem disp_toNat (ms : Int) : (disp ms).toNat = min (ms.toNat / 1000) (2 ^ 32 - 1) := by
  unfold disp
  split
  · have nothing : ms.toNat = 0 := by omega
    simp [nothing]
  · rw [BitVec.toNat_ofNat, Nat.min_eq_min, Nat.mod_eq_of_lt (by omega)]

/-- A longer countdown displays no fewer seconds. -/
theorem disp_monotone {a b : Int} (le : a ≤ b) : (disp a).toNat ≤ (disp b).toNat := by
  rw [disp_toNat, disp_toNat]
  omega

/-- The display in whole seconds: nothing below 0, cut, saturated at the register's width. -/
theorem disp_spec (ms : Int) :
    (ms ≤ 0 → disp ms = 0#32) ∧ (0 < ms → ((disp ms).toNat : Int) = min (ms / 1000) (2 ^ 32 - 1)) := by
  refine ⟨fun elapsed => if_pos elapsed, fun _ => ?_⟩
  rw [disp_toNat]
  omega

/-! ### The regimes of the countdown (R235) -/

section Regimes

variable {state : PredState} {ps : U32} (seq : U32) {s : State} (consts : ConstInv s)

include consts

theorem secondsRemaining_of_hidden (hidden : ¬ (state = .predicting ∧ ps.toNat ≤ 14400)) :
    secondsRemaining state ps seq s = (none, false, s) := by
  have cap : s.params.consts.maxPredS = 14400 := by rw [consts]; rfl
  exact if_pos (by rw [cap]; simpa [← imp_iff_not_or] using hidden)

theorem secondsRemaining_of_low (predicting : state = .predicting) (above : 300 < ps.toNat)
    (capped : ps.toNat ≤ 14400) :
    secondsRemaining state ps seq s = (some (lowRes ps seq s).1, false, (lowRes ps seq s).2) := by
  have cap : s.params.consts.maxPredS = 14400 := by rw [consts]; rfl
  have cutoff : s.params.consts.lowresCutoffS = 300 := by rw [consts]; rfl
  rw [secondsRemaining, if_neg (not_or.2 ⟨not_not.2 predicting, by omega⟩), if_pos (by omega)]

theorem secondsRemaining_of_high (predicting : state = .predicting) (below : ps.toNat ≤ 300) :
    secondsRemaining state ps seq s = (some (highRes ps s).1, true, (highRes ps s).2) := by
  have cap : s.params.consts.maxPredS = 14400 := by rw [consts]; rfl
  have cutoff : s.params.consts.lowresCutoffS = 300 := by rw [consts]; rfl
  rw [secondsRemaining, if_neg (not_or.2 ⟨not_not.2 predicting, by omega⟩), if_neg (by omega)]

end Regimes

/-- R86: code 1 alone means PREDICTING. -/
theorem predStateOfCode_eq_predicting_iff (c : BitVec 2) : predStateOfCode c = .predicting ↔ c = 1#2 := by
  unfold predStateOfCode
  split
  · simp_all
  · split <;> simp_all

/-! ### The low-resolution regime (R237, R238) -/

/-- With a step of 15 s the rounded value is the multiple of 15 within 7 (R237). -/
theorem round15_spec {p : Params} (table : p.consts = tableConsts) (n : Nat) :
    round15 p n % 15 = 0 ∧ round15 p n ≤ n + 7 ∧ n ≤ round15 p n + 7 := by
  have step : p.consts.lowresStepS = 15 := by rw [table]; rfl
  simp only [round15, step]
  split <;> omega

/-- Whatever it displays, the regime leaves the target and the step. -/
theorem lowRes_keeps (ps seq : U32) (s : State) :
    (lowRes ps seq s).2.targetSeconds = s.targetSeconds ∧ (lowRes ps seq s).2.stepPerTick = s.stepPerTick := by
  rcases lowRes_cases ps seq s with new | ⟨-, kept⟩
  · rw [new]
    exact ⟨rfl, rfl⟩
  · rw [kept]
    exact ⟨rfl, rfl⟩

section LowRes

variable (ps : U32) {seq : U32} {s : State}

/-- A new display, on every third sample or with nothing displayed. -/
theorem lowRes_of_new (consts : ConstInv s)
    (new : ¬ (s.prevInfoValid = true ∧ s.prevInfo.secsValid = true) ∨ seq.toNat % 3 = 0) :
    lowRes ps seq s = (BitVec.ofNat 32 (round15 s.params ps.toNat),
      { s with currentMs := wrapLin s.params (1000 * round15 s.params ps.toNat) }) := by
  have every : s.params.consts.lowresEvery = 3 := by rw [consts]; rfl
  refine if_pos ?_
  rcases new with nothing | third
  · simp [Bool.eq_false_iff.2 (mt (havePrev_iff s).1 nothing)]
  · simp [every, third]

/-- The display that is kept in between. -/
theorem lowRes_of_kept (consts : ConstInv s) (valid : s.prevInfoValid = true) (shown : s.prevInfo.secsValid = true)
    (between : seq.toNat % 3 ≠ 0) : lowRes ps seq s = (s.prevInfo.secs, s) := by
  have every : s.params.consts.lowresEvery = 3 := by rw [consts]; rfl
  exact if_neg (by simp [(havePrev_iff s).2 ⟨valid, shown⟩, every, between])

/-- A prediction up to the cap fits both registers. -/
theorem lowRes_new_fits (consts : ConstInv s) (capped : ps.toNat ≤ 14400) :
    (BitVec.ofNat 32 (round15 s.params ps.toNat)).toNat = round15 s.params ps.toNat ∧
      wrapLin s.params (1000 * round15 s.params ps.toNat) = 1000 * (round15 s.params ps.toNat : Int) := by
  obtain ⟨-, near, -⟩ := round15_spec consts ps.toNat
  exact ⟨by rw [BitVec.toNat_ofNat, Nat.mod_eq_of_lt (by omega)], wrapLin_of_table _ _ consts (by omega) (by omega)⟩

end LowRes

/-! ### The high-resolution regime (R239) -/

theorem targetOf_of_table {p : Params} (table : p.consts = tableConsts) (ps : U32) : targetOf p ps = ps.toNat - 5 := by
  rw [targetOf, table]
  rfl

/-- The step towards a target within the cutoff fits its register when the current value fits its own. -/
theorem wrapLin_walkStep {s : State} (consts : ConstInv s) (width : WidthInv s) {target : Nat} (near : target ≤ 300) :
    wrapLin s.params (walkStep s.params s.currentMs target) = Int.tdiv (s.currentMs - 1000 * (target : Int)) 25 := by
  have ticks : s.params.consts.reportMs / s.params.consts.tickMs = 25 := by rw [consts]; rfl
  have current : s.currentMs.bmod (2 ^ 64) = s.currentMs := by
    have fits := width.1
    rwa [wrapLin, consts] at fits
  have lower := Int.le_bmod (x := s.currentMs) (m := 2 ^ 64) (by decide)
  have upper := Int.bmod_lt (x := s.currentMs) (m := 2 ^ 64) (by decide)
  rw [current] at lower upper
  have quotient := Int.tdiv_eq_ediv (a := s.currentMs - 1000 * (target : Int)) (b := 25)
  rw [walkStep, ticks]
  refine wrapLin_of_table _ _ consts ?_ ?_ <;> grind

section HighRes

variable {ps : U32} {s : State} (consts : ConstInv s)

/-- Both branches write the target. -/
theorem highRes_targetSeconds (ps : U32) (s : State) :
    (highRes ps s).2.targetSeconds.toNat = targetOf s.params ps := by
  have bound := ps.isLt
  have written : (highRes ps s).2.targetSeconds = BitVec.ofNat 32 (targetOf s.params ps) := by
    unfold highRes
    simp only
    split <;> rfl
  rw [written, BitVec.toNat_ofNat, Nat.mod_eq_of_lt (by unfold targetOf; omega)]

include consts

/-- With a displayed countdown only the step is computed anew. -/
theorem highRes_of_walks (displayed : walks s = true) (below : ps.toNat ≤ 300) :
    (highRes ps s).2.currentMs = s.currentMs ∧
      (WidthInv s → (highRes ps s).2.stepPerTick =
        Int.tdiv (s.currentMs - 1000 * ((highRes ps s).2.targetSeconds.toNat : Int)) 25) := by
  have near : targetOf s.params ps ≤ 300 := by rw [targetOf_of_table consts]; omega
  have walk : (highRes ps s).2 =
      { s with
        targetSeconds := BitVec.ofNat 32 (targetOf s.params ps)
        stepPerTick := wrapLin s.params (walkStep s.params s.currentMs (targetOf s.params ps)) } := if_pos displayed
  rw [highRes_targetSeconds, walk]
  exact ⟨rfl, fun width => wrapLin_walkStep consts width near⟩

/-- Otherwise the countdown restarts at the prediction, at the speed of real time. -/
theorem highRes_of_not_walks (nothing : ¬ walks s = true) (below : ps.toNat ≤ 300) :
    (highRes ps s).2.currentMs = 1000 * (ps.toNat : Int) ∧ (highRes ps s).2.stepPerTick = 200 := by
  have period : s.params.consts.tickMs = 200 := by rw [consts]; rfl
  have fresh : (highRes ps s).2 =
      { s with
        targetSeconds := BitVec.ofNat 32 (targetOf s.params ps)
        currentMs := wrapLin s.params (1000 * ps.toNat)
        stepPerTick := wrapLin s.params s.params.consts.tickMs } := if_neg nothing
  rw [fresh, period]
  exact ⟨wrapLin_of_table _ _ consts (by omega) (by omega), wrapLin_of_table _ _ consts (by decide) (by decide)⟩

end HighRes

/-! ### PUPD (R231 to R240) -/

section Update

variable {s : State} (present : Bool) (st : PredictionStatus) {seq : U32} {now : U64} (consts : ConstInv s)

include consts in
theorem pupd_of_backward (backward : now.toNat < s.timeMs) :
    exec (.pupd present st seq now) s = .next (answerIllegal s) := by
  have before : clock s.params now < s.timeMs := by rwa [clock_of_table s.params now consts]
  simp only [exec, execPupd, atTime_of_lt now s _ before]

variable (forward : s.timeMs ≤ now.toNat)

include consts forward

theorem pupd_of_forward :
    exec (.pupd present st seq now) s =
      if isDuplicate seq s then .next (respond (.ok (.published false)) { s with timeMs := now.toNat })
      else .next (respond (.ok (.published true))
        (updatePrediction present st seq now.toNat { s with timeMs := now.toNat })) := by
  simp only [exec, execPupd, atTime_of_table _ consts forward]
  rfl

theorem pupd_of_duplicate (duplicate : s.prevSeqValid = true ∧ s.prevSeq = seq) :
    exec (.pupd present st seq now) s = .next (respond (.ok (.published false)) { s with timeMs := now.toNat }) :=
  (pupd_of_forward present st consts forward).trans (if_pos ((isDuplicate_iff seq s).2 duplicate))

theorem pupd_of_new (new : ¬ (s.prevSeqValid = true ∧ s.prevSeq = seq)) :
    exec (.pupd present st seq now) s =
      .next (respond (.ok (.published true))
        (updatePrediction present st seq now.toNat { s with timeMs := now.toNat })) :=
  (pupd_of_forward present st consts forward).trans (if_neg (mt (isDuplicate_iff seq s).1 new))

end Update

/-- Settles O34: a duplicate answers at its `now` and does nothing else. -/
theorem pupdDuplicateIsNoOp : Obligations.PupdDuplicateIsNoOp := by
  intro present st seq now s consts forward valid same
  exact ⟨_, pupd_of_duplicate present st consts forward ⟨valid, same⟩, keepsAllButTime_respond _ _ s⟩

/-- An update gives no response itself. -/
theorem updatePrediction_rsp (present : Bool) (st : PredictionStatus) (seq : U32) (now : Nat) (s : State) :
    (updatePrediction present st seq now s).rsp = s.rsp := by
  cases present with
  | false => rfl
  | true =>
    obtain ⟨target, step, current, keeps⟩ :=
      secondsRemaining_keeps (predStateOfCode st.state) st.predSecs seq { s with tickerArmed := false }
    simp [updatePrediction_present, keeps]

/-- What every new PUPD leaves, whatever its status: the answer, one publication of what it stored, the sequence number,
the watchdog restarted 15000 ms on, and the other units (R232, R240, R242). -/
theorem updatePrediction_spec {s : State} (present : Bool) (st : PredictionStatus) (seq : U32) (now : Nat)
    (consts : ConstInv s) :
    let t := respond (.ok (.published true)) (updatePrediction present st seq now { s with timeMs := now })
    Answers (.ok (.published true)) s t ∧
      t.pub = s.pub ++ [if t.prevInfoValid then some t.prevInfo else none] ∧
      (t.tickerArmed = true → t.tickerDeadline = now + 200) ∧
      (t.prevSeqValid = true ∧ t.prevSeq = seq ∧ t.predStale = false ∧ t.wdogArmed = true ∧
        t.wdogDeadline = now + 15000) ∧
      t.timeMs = now ∧ KeepsLog s t ∧ KeepsArb s t ∧ t.tx = s.tx ∧ KeepsOutside s t := by
  have watchdog : s.params.consts.predStaleMs = 15000 := by rw [consts]; rfl
  have period : s.params.consts.tickMs = 200 := by rw [consts]; rfl
  obtain ⟨valid, recorded, fresh, armed, wdogDeadline, tickerDeadline⟩ :=
    updatePrediction_timers present st seq now { s with timeMs := now }
  obtain ⟨log, arb, outside, time, tx⟩ := updatePrediction_frame present st seq now { s with timeMs := now }
  have answers := congrArg (· ++ [Response.ok (.published true)])
    (updatePrediction_rsp present st seq now { s with timeMs := now })
  have published := updatePrediction_pub present st seq now { s with timeMs := now }
  rw [← period, ← watchdog]
  exact ⟨answers, published, tickerDeadline, ⟨valid, recorded, fresh, armed, wdogDeadline⟩, time, log, arb, tx, outside⟩

/-- Settles O35: `updatePrediction_spec`, with no previous information left to publish. -/
theorem pupdAbsentStatus : Obligations.PupdAbsentStatus := by
  intro st seq now s consts forward new
  obtain ⟨answers, published, -, ⟨valid, recorded, fresh, armed, deadline⟩, frame⟩ :=
    updatePrediction_spec false st seq now.toNat consts
  obtain ⟨time, log, arb, tx, outside⟩ := frame
  exact ⟨_, pupd_of_new false st consts forward new, answers, rfl, published, valid, recorded, fresh, armed, deadline,
    rfl, ⟨rfl, rfl, rfl⟩, time, log, arb, tx, outside⟩

/-- A status's countdown, in the state from which an update computes it: the ticker is cancelled first (R233). -/
def updateCountdown (st : PredictionStatus) (seq : U32) (s : State) : Option U32 × Bool × State :=
  secondsRemaining (predStateOfCode st.state) st.predSecs seq { s with tickerArmed := false }

/-- What an update with a status makes of the countdown it computed. -/
theorem updatePrediction_of_countdown {st : PredictionStatus} {seq : U32} {s u : State} {shown : Option U32}
    {start : Bool} (now : Nat) (countdown : updateCountdown st seq s = (shown, start, u)) :
    let t := updatePrediction true st seq now s
    t.prevInfo.secsValid = shown.isSome ∧ (∀ secs, shown = some secs → t.prevInfo.secs = secs) ∧
      t.tickerArmed = start ∧ KeepsCountdown u t := by
  have update : updatePrediction true st seq now s = armTimers start seq now (storeInfo st shown u) := by
    rw [updateCountdown] at countdown
    simp only [updatePrediction_present, countdown]
  simp only [update, armTimers_prevInfo, storeInfo_prevInfo, armTimers_tickerArmed, KeepsCountdown,
    armTimers_targetSeconds, armTimers_stepPerTick, armTimers_currentMs, storeInfo_targetSeconds, storeInfo_stepPerTick,
    storeInfo_currentMs]
  refine ⟨trivial, ?_, trivial, trivial, trivial, trivial⟩
  rintro secs rfl
  rfl

/-- A status is stored as it stands, code 3 as IDLE, with its percentage (R232). -/
theorem updatePrediction_fields (st : PredictionStatus) (seq : U32) (now : Nat) (s : State) :
    let t := updatePrediction true st seq now s
    t.prevInfoValid = true ∧ t.prevInfo.state = predStateOfCode st.state ∧ t.prevInfo.mode = st.mode ∧
      t.prevInfo.ptype = st.ptype ∧ t.prevInfo.setPoint = st.setPoint ∧ t.prevInfo.heatStart = st.heatStart ∧
      t.prevInfo.estCore = st.estCore ∧
      t.prevInfo.percent = pct st.estCore.toInt st.heatStart.toInt st.setPoint.toInt := by
  simp [updatePrediction_present, storeInfo_prevInfo]

/-- Which statuses show a countdown, start the ticker, or leave the linearization registers (R235). -/
theorem updatePrediction_regimes (st : PredictionStatus) (seq : U32) (now : Nat) {s : State} (consts : ConstInv s) :
    let t := updatePrediction true st seq now s
    (t.prevInfo.secsValid = true ↔ st.state = 1#2 ∧ st.predSecs.toNat ≤ 14400) ∧
      (t.tickerArmed = true ↔ st.state = 1#2 ∧ st.predSecs.toNat ≤ 300) ∧
      (¬ (st.state = 1#2 ∧ st.predSecs.toNat ≤ 14400) → KeepsCountdown s t) := by
  simp only [← predStateOfCode_eq_predicting_iff]
  by_cases shown : predStateOfCode st.state = .predicting ∧ st.predSecs.toNat ≤ 14400
  · obtain ⟨predicting, capped⟩ := shown
    rcases Nat.lt_or_ge 300 st.predSecs.toNat with low | high
    · obtain ⟨display, -, ticker, -⟩ :=
        updatePrediction_of_countdown (s := s) now (secondsRemaining_of_low seq consts predicting low capped)
      simp [display, ticker, predicting, capped, low]
    · obtain ⟨display, -, ticker, -⟩ :=
        updatePrediction_of_countdown (s := s) now (secondsRemaining_of_high seq consts predicting high)
      simp [display, ticker, predicting, capped, high]
  · obtain ⟨display, -, ticker, keeps⟩ :=
      updatePrediction_of_countdown (s := s) now (secondsRemaining_of_hidden seq consts shown)
    refine ⟨?_, ?_, fun _ => keeps⟩
    · simpa [display] using shown
    · rw [ticker]
      exact ⟨fun h => (Bool.false_ne_true h).elim, fun h => (shown ⟨h.1, by omega⟩).elim⟩

/-- Settles O36: `updatePrediction_spec` for what is published and restarted, the status's fields, the regimes. -/
theorem pupdPublishesInformation : Obligations.PupdPublishesInformation := by
  intro st seq now s consts forward new
  obtain ⟨answers, published, deadline, ⟨seqValid, recorded, fresh, armed, wdogDeadline⟩, frame⟩ :=
    updatePrediction_spec true st seq now.toNat consts
  obtain ⟨valid, state, mode, ptype, setPoint, heatStart, estCore, percent⟩ :=
    updatePrediction_fields st seq now.toNat { s with timeMs := now.toNat }
  obtain ⟨shown, ticker, keeps⟩ :=
    updatePrediction_regimes st seq now.toNat (s := { s with timeMs := now.toNat }) consts
  rw [respond_prevInfoValid, valid] at published
  exact ⟨_, pupd_of_new true st consts forward new, answers, valid, published, state, mode, ptype, setPoint, heatStart,
    estCore, percent, shown, ticker, deadline, keeps, seqValid, recorded, fresh, armed, wdogDeadline, frame⟩

/-- Settles O37: the regime of `secondsRemaining_of_low`, with a new display or the kept one. -/
theorem pupdLowResolution : Obligations.PupdLowResolution := by
  intro st seq now s consts forward new predicting above capped
  have state := (predStateOfCode_eq_predicting_iff _).2 predicting
  obtain ⟨-, display, ticker, target, step, current⟩ :=
    updatePrediction_of_countdown (s := { s with timeMs := now.toNat }) now.toNat
      (secondsRemaining_of_low seq consts state above capped)
  replace display := display _ rfl
  obtain ⟨targetKept, stepKept⟩ := lowRes_keeps st.predSecs seq { s with timeMs := now.toNat, tickerArmed := false }
  refine ⟨_, pupd_of_new true st consts forward new, ticker, target.trans targetKept, step.trans stepKept,
    fun renewed => ?renewed, fun valid shown between => ?kept⟩
  case renewed =>
    rw [lowRes_of_new (s := { s with timeMs := now.toNat, tickerArmed := false }) _ consts renewed] at display current
    obtain ⟨fits, unwrapped⟩ := lowRes_new_fits st.predSecs consts capped
    obtain ⟨multiple, upper, lower⟩ := round15_spec consts st.predSecs.toNat
    simp only [respond_prevInfo, respond_currentMs, display, current, fits, unwrapped]
    exact ⟨multiple, upper, lower, trivial⟩
  case kept =>
    rw [lowRes_of_kept (s := { s with timeMs := now.toNat, tickerArmed := false }) _ consts valid shown between]
      at display current
    exact ⟨display, current⟩

/-- Settles O38: the regime of `secondsRemaining_of_high`, walking or restarted, with the display of `disp_spec`. -/
theorem pupdHighResolution : Obligations.PupdHighResolution := by
  intro st seq now s consts forward new predicting below
  have state := (predStateOfCode_eq_predicting_iff _).2 predicting
  obtain ⟨-, display, -, target, step, current⟩ :=
    updatePrediction_of_countdown (s := { s with timeMs := now.toNat }) now.toNat
      (secondsRemaining_of_high seq consts state below)
  replace display := (display _ rfl).trans (highRes_spec _ _).1
  obtain ⟨elapsed, running⟩ :=
    disp_spec (highRes st.predSecs { s with timeMs := now.toNat, tickerArmed := false }).2.currentMs
  refine ⟨_, pupd_of_new true st consts forward new, ?_⟩
  simp only [respond_targetSeconds, respond_currentMs, respond_stepPerTick, respond_prevInfo, target, step, current,
    display]
  refine ⟨?target, elapsed, running, fun displayed => ?walk, fun nothing => ?fresh⟩
  case target =>
    rw [highRes_targetSeconds, targetOf_of_table consts]
    omega
  case walk => exact highRes_of_walks consts ((walks_iff s).2 displayed) below
  case fresh => exact highRes_of_not_walks consts (mt (walks_iff s).1 nothing) below

/-! ### PPCT (R241) -/

/-- Between the floors the quotient lies from 0 to 100, so neither the clamp nor the 7 bits change it. -/
theorem pct_between {core start sp : Int} (above : start < core) (below : core < sp) :
    ((pct core start sp).toNat : Int) = (200 * (core - start) + (sp - start)) / (2 * (sp - start)) ∧
      (pct core start sp).toNat ≤ 100 := by
  have nonneg : 0 ≤ (200 * (core - start) + (sp - start)) / (2 * (sp - start)) :=
    Int.ediv_nonneg (by omega) (by omega)
  have le : (200 * (core - start) + (sp - start)) / (2 * (sp - start)) < 101 :=
    Int.ediv_lt_of_lt_mul (by omega) (by omega)
  rw [pct, if_neg (by omega), if_neg (by omega)]
  generalize (200 * (core - start) + (sp - start)) / (2 * (sp - start)) = q at nonneg le ⊢
  rw [Int.min_eq_right (by omega), Int.max_eq_right nonneg, BitVec.toNat_ofInt]
  omega

/-- Settles O40: the two floors, and between them the bounds of a floor division. -/
theorem ppctRoundsPercent : Obligations.PpctRoundsPercent := by
  intro core start sp s
  refine ⟨_, _, rfl, onlyAnswers_respond _ _, ?_⟩
  generalize core.toInt = core, start.toInt = start, sp.toInt = sp
  by_cases floor : core ≤ start
  · have zero : pct core start sp = 0#7 := if_pos floor
    rw [zero]
    exact ⟨by decide, fun _ => rfl, by omega, by omega⟩
  by_cases ceiling : sp ≤ core
  · have full : pct core start sp = 100#7 := (if_neg floor).trans (if_pos ceiling)
    rw [full]
    exact ⟨by decide, by omega, fun _ _ => rfl, by omega⟩
  obtain ⟨value, le⟩ := pct_between (Int.not_le.1 floor) (Int.not_le.1 ceiling)
  have lower := Int.ediv_mul_le (200 * (core - start) + (sp - start)) (b := 2 * (sp - start)) (by omega)
  have upper := Int.lt_ediv_add_one_mul_self (200 * (core - start) + (sp - start)) (b := 2 * (sp - start)) (by omega)
  rw [← value] at lower upper
  exact ⟨le, by omega, by omega, fun _ _ => ⟨by linarith, by linarith⟩⟩

/-! ### PRD (R246) -/

/-- Settles O39: the two branches of PRD, told apart by `infoVisible_iff`. -/
theorem prdShowsUnlessStale : Obligations.PrdShowsUnlessStale := by
  intro s
  refine ⟨fun valid fresh => ?_, fun hidden => ?_⟩
  · exact ⟨_, if_pos ((infoVisible_iff s).2 ⟨valid, fresh⟩), onlyAnswers_respond _ _⟩
  · have invisible : ¬ infoVisible s = true := by
      rw [infoVisible_iff]
      rintro ⟨valid, fresh⟩
      rcases hidden with invalid | stale
      · simp [invalid] at valid
      · simp [stale] at fresh
    exact ⟨_, if_neg invisible, onlyAnswers_respond _ _⟩

end Sys2Proof.Machine
end

section
/-! PROOFS. Unit SMOOTH, the two timers (R243 to R245, R248): what an enabled event leaves, which way the display moves,
and how many ticks one arming of the ticker yields. -/

namespace Sys2Proof.Machine

/-! ### The two events (R244, R245) -/

theorem ptick_of_enabled {s : State} (enabled : tickEnabled s = true) : exec .ptick s = .next (tick s) := if_pos enabled

theorem ptick_of_disabled {s : State} (disabled : ¬ tickEnabled s = true) : exec .ptick s = .next s := if_neg disabled

/-- Settles O41: `tick` by its fields, and the display by `disp_spec`. -/
theorem ptickWalksCountdown : Obligations.PtickWalksCountdown := by
  intro s consts armed notPast
  have period : s.params.consts.tickMs = 200 := by rw [consts]; rfl
  have wrapped : (tick s).currentMs = Int.bmod (s.currentMs - s.stepPerTick) (2 ^ 64) := by
    rw [tick_currentMs, wrapLin, consts]
    rfl
  have deadline : (tick s).tickerDeadline = s.tickerDeadline + 200 := by rw [tick_tickerDeadline, period]
  obtain ⟨elapsed, running⟩ := disp_spec (tick s).currentMs
  refine ⟨tick s, ptick_of_enabled ((tickEnabled_iff s).2 ⟨armed, notPast⟩), rfl, wrapped, rfl, elapsed, running, rfl,
    deadline, ?_⟩
  and_intros <;> rfl

/-- Settles O42: `watchdogFires` by its fields. -/
theorem pwdogMarksStale : Obligations.PwdogMarksStale := by
  intro s armed notPast
  refine ⟨watchdogFires s, if_pos ((wdogEnabled_iff s).2 ⟨armed, notPast⟩), ?_⟩
  and_intros <;> rfl

/-- Settles O44: the display follows `current_ms`, which the tick moves against the sign of the step. -/
theorem ticksFollowTheSignOfTheStep : Obligations.TicksFollowTheSignOfTheStep := by
  intro s t h armed notPast displayed unwrapped
  obtain rfl : tick s = t := by
    simpa using (ptick_of_enabled ((tickEnabled_iff s).2 ⟨armed, notPast⟩)).symm.trans h
  have reduced : (tick s).prevInfo.secs = disp (s.currentMs - s.stepPerTick) := by
    rw [← unwrapped]
    rfl
  rw [reduced, displayed]
  exact ⟨fun down => disp_monotone (by omega), fun up => disp_monotone (by omega)⟩

/-! ### One arming of the ticker (R243) -/

/-- The ticker is armed in `t` only as it was armed in `s`: no operation in between arms or moves it. -/
def KeepsArming (s t : State) : Prop :=
  t.tickerArmed = true →
    s.tickerArmed = true ∧ t.tickerDeadline = s.tickerDeadline ∧ t.wdogDeadline = s.wdogDeadline

theorem keepsArming_refl (s : State) : KeepsArming s s := fun armed => ⟨armed, rfl, rfl⟩

/-- Only a tick moves the deadline of an armed ticker, and only an update arms it (R232, R244). -/
theorem Effect.keepsArming {s t : State} {i : Instr} (h : Effect s i t) (notTick : i ≠ .ptick)
    (notUpdate : ∀ present st seq now, i ≠ .pupd present st seq now) : KeepsArming s t := by
  cases h with
  | unchanged | timeOnly | session | logFrame | covered | pending | requested => exact keepsArming_refl s
  | reset | disconnect | watchdogFired => exact fun armed => (Bool.false_ne_true armed).elim
  | accepted =>
    rw [acceptCandidate_eq]
    exact keepsArming_refl s
  | updated present st seq now => exact (notUpdate present st seq now rfl).elim
  | ticked => exact (notTick rfl).elim

/-- The operation starts no new arming: a PUPD is answered ILLEGAL or is a duplicate. -/
def StartsNoUpdate (i : Instr) (s : State) : Prop :=
  ∀ present st seq time, i = .pupd present st seq time →
    time.toNat < s.timeMs ∨ (s.prevSeqValid = true ∧ s.prevSeq = seq)

/-- The ticker fires: the operation is an enabled PTICK. -/
abbrev Fires (i : Instr) (s : State) : Prop := i = .ptick ∧ tickEnabled s = true

/-- An operation that neither updates nor fires the ticker keeps its arming. -/
theorem exec_keepsArming {i : Instr} {s t : State} (consts : ConstInv s) (h : exec i s = .next t)
    (noUpdate : StartsNoUpdate i s) (quiet : ¬ Fires i s) : KeepsArming s t := by
  by_cases pupd : ∃ present st seq time, i = .pupd present st seq time
  · obtain ⟨present, st, seq, time, rfl⟩ := pupd
    rcases Nat.lt_or_ge time.toNat s.timeMs with backward | forward
    · rw [pupd_of_backward present st consts backward] at h
      cases h
      exact keepsArming_refl s
    · have duplicate := (noUpdate _ _ _ _ rfl).resolve_left (Nat.not_lt.2 forward)
      rw [pupd_of_duplicate present st consts forward duplicate] at h
      cases h
      exact keepsArming_refl s
  by_cases ptick : i = .ptick
  · subst ptick
    rw [ptick_of_disabled fun enabled => quiet ⟨rfl, enabled⟩] at h
    cases h
    exact keepsArming_refl s
  · exact exec_preserves (P := KeepsArming s) (fun _ _ _ _ kept => kept) h fun u effect =>
      effect.keepsArming ptick fun present st seq now update => pupd ⟨present, st, seq, now, update⟩

/-- `count` ticks after an arming at `now`: while the ticker is still armed, its deadline has moved by as many periods
against a watchdog that stayed, so there are at most 75. -/
structure Ticked (now count : Nat) (s : State) : Prop where
  consts : ConstInv s
  bound : count ≤ 75
  deadlines : s.tickerArmed = true → s.tickerDeadline = now + 200 * (count + 1) ∧ s.wdogDeadline = now + 15000

/-- An enabled tick counts one more, any other operation of the arming none. -/
theorem Ticked.after_exec {now count : Nat} {i : Instr} {s t : State} (ticked : Ticked now count s)
    (h : exec i s = .next t) (noUpdate : StartsNoUpdate i s) : Ticked now (count + if Fires i s then 1 else 0) t := by
  obtain ⟨consts, bound, deadlines⟩ := ticked
  have consts' : ConstInv t := by rw [ConstInv, (whoWritesWhat.1 i s t h).1, consts]
  by_cases fires : Fires i s
  · rw [if_pos fires]
    obtain ⟨rfl, enabled⟩ := fires
    rw [ptick_of_enabled enabled] at h
    cases h
    obtain ⟨armed, notPast⟩ := (tickEnabled_iff s).1 enabled
    obtain ⟨ticker, watchdog⟩ := deadlines armed
    have period : s.params.consts.tickMs = 200 := by rw [consts]; rfl
    exact ⟨consts', by omega, fun _ => ⟨by rw [tick_tickerDeadline]; omega, watchdog⟩⟩
  · rw [if_neg fires]
    refine ⟨consts', bound, fun armed => ?_⟩
    obtain ⟨before, ticker, watchdog⟩ := exec_keepsArming consts h noUpdate fires armed
    rw [ticker, watchdog]
    exact deadlines before

/-- The ticks among the first `n` operations of a run. -/
def tickCount (run : Nat → State) (op : Nat → Instr) (n : Nat) : Nat :=
  ((List.range n).filter fun k => decide (op k = .ptick) && tickEnabled (run k)).length

theorem tickCount_succ (run : Nat → State) (op : Nat → Instr) (n : Nat) :
    tickCount run op (n + 1) = tickCount run op n + if Fires (op n) (run n) then 1 else 0 := by
  simp only [tickCount, List.range_succ, List.filter_append, List.length_append, List.filter_singleton, Fires]
  by_cases fires : op n = .ptick ∧ tickEnabled (run n) = true
  · simp [fires]
  · have unselected : (decide (op n = .ptick) && tickEnabled (run n)) = false := by simpa using fires
    simp [unselected, fires]

/-- Settles O45: by induction on the operations, `Ticked` holds with the number of ticks so far. -/
theorem atMostSeventyFiveTicks : Obligations.AtMostSeventyFiveTicks := by
  intro now n run op consts ticker watchdog runs noUpdate
  have counted : ∀ m ≤ n, Ticked now (tickCount run op m) (run m) := by
    intro m
    induction m with
    | zero => exact fun _ => ⟨consts, Nat.zero_le _, fun _ => ⟨ticker, watchdog⟩⟩
    | succ m ih =>
      intro le
      rw [tickCount_succ]
      exact (ih (by omega)).after_exec (runs m le) (noUpdate m le)
  exact (counted n (le_refl n)).bound

end Sys2Proof.Machine
end

section
/-! PROOFS. Unit SYSTEM (R270 to R272): NOP and RST are a response on top of a state that is already described, and a state
whose timers are not armed enables neither event. -/

namespace Sys2Proof.Machine

/-! ### NOP and RST (R270, R271) -/

/-- Settles O1: the answer of NOP is its only effect. -/
theorem nopOnlyAnswers : Obligations.NopOnlyAnswers :=
  fun s => ⟨respond (.ok .empty) s, rfl, onlyAnswers_respond _ _⟩

/-- R47 gives RSP no value, so a response keeps the values it gives. -/
theorem HasResetValues.respond {s : State} (h : HasResetValues s) (r : Response) : HasResetValues (respond r s) := h

/-- Settles O2: the response of RST comes on top of `afterReset`. -/
theorem rstGivesResetValues : Obligations.RstGivesResetValues := by
  intro s
  have outside : KeepsOutside s (afterReset s) := Effect.reset.keepsOutside
  exact ⟨respond (.ok .empty) (afterReset s), rfl, (afterReset_hasResetValues s).respond _, rfl, outside⟩

/-! ### DISC (R272) -/

theorem tickEnabled_of_disarmed {s : State} (ticker : s.tickerArmed = false) : tickEnabled s = false := by
  simp [tickEnabled, ticker]

theorem wdogEnabled_of_disarmed {s : State} (watchdog : s.wdogArmed = false) : wdogEnabled s = false := by
  simp [wdogEnabled, watchdog]

/-- Settles O4: the two cleared armed flags disable both events, every other register is that of the state before. -/
theorem discClearsThreeBits : Obligations.DiscClearsThreeBits := by
  intro s
  refine ⟨_, rfl, rfl, rfl, rfl, tickEnabled_of_disarmed rfl, wdogEnabled_of_disarmed rfl, ?frame⟩
  case frame => and_intros <;> rfl

end Sys2Proof.Machine
end

section
/-! PROOFS. Completion (R280, R283): the ILLEGAL operations are answered and change nothing, every other host operation gives
one response that is not ILLEGAL, and the two events give none. -/

namespace Sys2Proof.Machine

/-! ### ILLEGAL answers (R283) -/

/-- The two conditions of R283 on an operation and the state it meets: an FBUILD payload above 255 bytes, a `now` before
`S.time_ms`. -/
def Illegal (i : Instr) (s : State) : Prop :=
  (∃ mtype payload, i = .fbuild mtype payload ∧ 255 < payload.length) ∨
    ∃ now, operandNow s.params i = some now ∧ now < s.timeMs

/-- Under either condition the operation is the ILLEGAL answer and nothing else. -/
theorem exec_of_illegal {i : Instr} {s : State} (illegal : Illegal i s) : exec i s = .next (answerIllegal s) := by
  rcases illegal with ⟨mtype, payload, rfl, long⟩ | ⟨now, operand, backward⟩
  · exact if_pos long
  · cases i with
    | irqry | iracc | irrd | pupd =>
      cases operand
      simp only [exec, execIrqry, execIracc, execIrrd, execPupd, atTime_of_lt _ s _ backward]
    | _ => cases operand

theorem forward_of_legal {i : Instr} {s : State} {now : Nat} (operand : operandNow s.params i = some now)
    (legal : ¬ Illegal i s) : s.timeMs ≤ now :=
  Nat.le_of_not_lt fun backward => legal (.inr ⟨now, operand, backward⟩)

/-- Settles O32: a backward `now` is the second condition, and the ILLEGAL answer changes no register. -/
theorem backwardTimeIsIllegal : Obligations.BackwardTimeIsIllegal :=
  fun _ now s operand backward =>
    ⟨answerIllegal s, exec_of_illegal (.inr ⟨now, operand, backward⟩), onlyAnswers_answerIllegal s⟩

/-! ### Every other answer (R83) -/

/-- An operation met in the state `s` ends, and gives one response, which is not ILLEGAL. -/
def AnswersLegally (s : State) (a : Answer) : Prop := ∃ t r, a = .next t ∧ Answers r s t ∧ r ≠ .illegal

/-- A response given in a state that has given none since `s`. -/
theorem answersLegally_reply {s u : State} {r : Response} (silent : u.rsp = s.rsp) (legal : r ≠ .illegal) :
    AnswersLegally s (reply r u) :=
  ⟨respond r u, r, rfl, congrArg (· ++ [r]) silent, legal⟩

theorem answersLegally_replyOption {α : Type} (f : α → Results) (o : Option α) (s : State) :
    AnswersLegally s (replyOption f o s) := by
  cases o with
  | none => exact answersLegally_reply (r := .absent) rfl nofun
  | some a => exact answersLegally_reply (r := .ok (f a)) rfl nofun

/-- The evaluation of a status answers in each of its three outcomes (R187). -/
theorem answersLegally_evaluateGap {s u : State} (min max : U32) (silent : u.rsp = s.rsp) :
    AnswersLegally s (evaluateGap min max u) := by
  unfold evaluateGap
  split
  · exact answersLegally_reply silent nofun
  · split <;> exact answersLegally_reply silent nofun

/-- At a `now` that does not run backwards the meaning itself answers. -/
theorem answersLegally_atTime {s : State} {now : U64} {k : State → Answer} (forward : s.timeMs ≤ clock s.params now)
    (answers : AnswersLegally s (k { s with timeMs := clock s.params now })) : AnswersLegally s (atTime now s k) := by
  rwa [atTime_of_le now s k forward]

/-- A host operation under neither condition of R283. The cases are grouped by how the meaning ends: one response, an
optional result, a choice of responses, and the same after the time rule. -/
theorem exec_answersLegally {i : Instr} {s : State} (notTick : i ≠ .ptick) (notWdog : i ≠ .pwdog)
    (legal : ¬ Illegal i s) : AnswersLegally s (exec i s) := by
  cases i with
  | nop | rst | disc | tenc | mdec | bdec | hdec | fsenc | fparse | crc16 | lsess | lutd | ppct =>
    exact answersLegally_reply rfl nofun
  | lframe seq r => exact answersLegally_reply (appendPoint_rsp seq (maskTemps r) s) nofun
  | tdec | fsdec | adec | lmiss => exact answersLegally_replyOption _ _ s
  | fbuild mtype payload =>
    have short : ¬ 255 < payload.length := fun long => legal (.inl ⟨mtype, payload, rfl, long⟩)
    simp only [exec, execFbuild, if_neg short]
    exact answersLegally_reply rfl nofun
  | lstat min max r mode =>
    simp only [exec, execLstat_eq]
    exact answersLegally_evaluateGap min max rfl
  | prd =>
    simp only [exec, execPrd]
    split <;> exact answersLegally_reply rfl nofun
  | irqry hopPresent hop now =>
    simp only [exec, execIrqry]
    exact answersLegally_atTime (forward_of_legal rfl legal) (answersLegally_reply rfl nofun)
  | iracc value hopPresent hop now =>
    simp only [exec, execIracc]
    refine answersLegally_atTime (forward_of_legal rfl legal) ?_
    simp only [acceptCandidate_eq]
    split <;> exact answersLegally_reply rfl nofun
  | irrd now =>
    simp only [exec, execIrrd]
    refine answersLegally_atTime (forward_of_legal rfl legal) ?_
    split <;> exact answersLegally_reply rfl nofun
  | pupd present st seq now =>
    simp only [exec, execPupd]
    refine answersLegally_atTime (forward_of_legal rfl legal) ?_
    split
    · exact answersLegally_reply rfl nofun
    · exact answersLegally_reply (updatePrediction_rsp present st seq _ _) nofun
  | ptick => exact absurd rfl notTick
  | pwdog => exact absurd rfl notWdog

/-! ### The two events (R83) -/

theorem ptick_completes (s : State) : ∃ t, exec .ptick s = .next t ∧ t.rsp = s.rsp := by
  by_cases enabled : tickEnabled s = true
  · exact ⟨tick s, ptick_of_enabled enabled, tick_rsp s⟩
  · exact ⟨s, ptick_of_disabled enabled, rfl⟩

theorem pwdog_completes (s : State) : ∃ t, exec .pwdog s = .next t ∧ t.rsp = s.rsp := by
  by_cases enabled : wdogEnabled s = true
  · exact ⟨watchdogFires s, if_pos enabled, watchdogFires_rsp s⟩
  · exact ⟨s, if_neg enabled, rfl⟩

/-! ### Every operation and event -/

/-- Settles O52: an event gives no response; a host operation is ILLEGAL under a condition of R283 and answers otherwise. -/
theorem everyOperationCompletes : Obligations.EveryOperationCompletes := by
  intro i s
  by_cases event : i = .ptick ∨ i = .pwdog
  · obtain ⟨t, run, silent⟩ : ∃ t, exec i s = .next t ∧ t.rsp = s.rsp := by
      rcases event with rfl | rfl
      · exact ptick_completes s
      · exact pwdog_completes s
    exact ⟨t, run, fun _ => silent, fun notTick notWdog => absurd event (not_or.2 ⟨notTick, notWdog⟩)⟩
  · obtain ⟨notTick, notWdog⟩ := not_or.1 event
    by_cases illegal : Illegal i s
    · exact ⟨answerIllegal s, exec_of_illegal illegal, fun h => absurd h event,
        fun _ _ => ⟨.illegal, answerIllegal_rsp s, iff_of_true rfl illegal⟩⟩
    · obtain ⟨t, r, run, answers, legal⟩ := exec_answersLegally notTick notWdog illegal
      exact ⟨t, run, fun h => absurd h event, fun _ _ => ⟨r, answers, iff_of_false legal illegal⟩⟩

/-- No operation faults, and none is refused (R280). -/
theorem exec_completes (i : Instr) (s : State) : ∃ t, exec i s = .next t := by
  obtain ⟨t, run, -⟩ := everyOperationCompletes i s
  exact ⟨t, run⟩

end Sys2Proof.Machine
end

section
/-! PROOFS. One step (R10, R287): the step at each form of the agenda, the timer that goes before a command, and the one
refusal. -/

namespace Sys2Proof.Machine

/-! ### The step at each form of the agenda (R10) -/

section Step

variable {s : State} {bytes : Buffer} {rest : List Event} {i : Instr}

theorem step_of_ticker (agenda : s.agenda = .ticker :: rest) : step s = exec .ptick (withAgenda rest s) := by
  simp [step, agenda]

theorem step_of_watchdog (agenda : s.agenda = .watchdog :: rest) : step s = exec .pwdog (withAgenda rest s) := by
  simp [step, agenda]

theorem step_of_idle (agenda : s.agenda = []) : step s = .next s := by
  simp [step, agenda]

variable (agenda : s.agenda = .command bytes :: rest)

include agenda

theorem step_of_malformed {why : DecodeError} (fetched : fetchCommand bytes = .malformed why) :
    step s = .refused (.malformedCommand why) := by
  simp [step, agenda, fetched]

theorem step_of_due_timer {timer : Instr} (fetched : fetchCommand bytes = .run i)
    (due : dueTimer (operandNow s.params i) s = some timer) : step s = exec timer (drawn s) := by
  simp [step, agenda, fetched, due]

theorem step_of_no_due_timer (fetched : fetchCommand bytes = .run i)
    (due : dueTimer (operandNow s.params i) s = none) : step s = exec i (withAgenda rest s) := by
  simp [step, agenda, fetched, due]

end Step

/-- Settles O48: the first entry of the agenda, or its absence, decides the step. -/
theorem stepTakesTimerTurn : Obligations.StepTakesTimerTurn :=
  fun _ => ⟨fun _ => step_of_ticker, fun _ => step_of_watchdog, step_of_idle⟩

/-! ### Fetching a command (R81, R92) -/

theorem isInternal_iff (i : Instr) : isInternal i = true ↔ i = .ptick ∨ i = .pwdog := by
  cases i <;> simp [isInternal, opcode]

theorem isInternal_of_operandNow {p : Params} {i : Instr} {now : Nat} (operand : operandNow p i = some now) :
    isInternal i = false := by
  rw [← Bool.not_eq_true, isInternal_iff]
  rintro (rfl | rfl) <;> cases operand

theorem fetchCommand_of_host {bytes : Buffer} {i : Instr} (decoded : decode bytes = .ok (i, []))
    (host : isInternal i = false) : fetchCommand bytes = .run i := by
  simp [fetchCommand, decoded, host]

theorem fetchCommand_of_internal {bytes rest : Buffer} {i : Instr} (decoded : decode bytes = .ok (i, rest))
    (internal : isInternal i = true) : fetchCommand bytes = .illegal := by
  simp [fetchCommand, decoded, internal]

/-- The bytes of a well-formed operation are a command. -/
theorem fetchCommand_encode_ne_malformed {i : Instr} (wf : i.wf = true) (why : DecodeError) :
    fetchCommand (encode i) ≠ .malformed why := by
  have decoded := decode_of_encode_eq wf rfl
  cases internal : isInternal i with
  | true => simp [fetchCommand_of_internal decoded internal]
  | false => simp [fetchCommand_of_host decoded internal]

/-! ### The timer before a command (R287 (b), (c)) -/

section DueTimer

variable {s : State} {now : Nat}

/-- The ticker goes first when it is due and the watchdog's deadline is later. -/
theorem dueTimer_of_ticker_earlier (armed : s.tickerArmed = true) (due : s.tickerDeadline < now)
    (earlier : s.tickerDeadline < s.wdogDeadline) : dueTimer (some now) s = some .ptick := by
  simp [dueTimer, armed, due, earlier]

/-- The watchdog goes first when it is due and the ticker is stopped or its deadline is later. -/
theorem dueTimer_of_watchdog_earlier (armed : s.wdogArmed = true) (due : s.wdogDeadline < now)
    (earlier : s.tickerArmed = false ∨ s.wdogDeadline < s.tickerDeadline) : dueTimer (some now) s = some .pwdog := by
  rcases earlier with stopped | earlier
  · simp [dueTimer, armed, due, stopped]
  · simp [dueTimer, armed, due, earlier, Nat.not_lt.2 earlier.le]

/-- With both due at one deadline the free choice says which goes first. -/
theorem dueTimer_of_tie (ticker : s.tickerArmed = true) (watchdog : s.wdogArmed = true)
    (tie : s.tickerDeadline = s.wdogDeadline) (due : s.wdogDeadline < now) :
    dueTimer (some now) s = some (if Config.tickerFirst s.freeCount then .ptick else .pwdog) := by
  simp [dueTimer, ticker, watchdog, tie, due, apply_ite some]

end DueTimer

/-- Settles O46: no armed deadline below its `now` means no due timer, and a command without `now` waits for none. -/
theorem stepRunsPresentedCommand : Obligations.StepRunsPresentedCommand := by
  intro s bytes rest i agenda decoded notTick notWdog notDue
  have host : isInternal i = false := by simp [← Bool.not_eq_true, isInternal_iff, notTick, notWdog]
  refine step_of_no_due_timer agenda (fetchCommand_of_host decoded host) ?_
  cases operand : operandNow s.params i with
  | none => rfl
  | some now => exact (dueTimer_eq_none now s).2 (notDue now operand)

/-- A timer that fires before a command completes, and leaves the agenda as it is. -/
theorem exec_drawn_keeps_agenda (timer : Instr) (s : State) :
    ∃ t, exec timer (drawn s) = .next t ∧ t.agenda = s.agenda := by
  obtain ⟨t, run⟩ := exec_completes timer (drawn s)
  obtain ⟨-, agenda⟩ := whoWritesWhat.1 timer (drawn s) t run
  exact ⟨t, run, agenda⟩

/-- Settles O47: the order of the deadlines decides the due timer, and its event leaves the agenda as it is. -/
theorem stepFiresDueTimerFirst : Obligations.StepFiresDueTimerFirst := by
  intro s bytes rest i now agenda decoded operand watchdog
  have fetched := fetchCommand_of_host decoded (isInternal_of_operandNow operand)
  have fires {timer} (due : dueTimer (some now) s = some timer) : step s = exec timer (drawn s) :=
    step_of_due_timer agenda fetched (operand ▸ due)
  refine ⟨fun ticker due earlier => ?ticker, fun due earlier => ?watchdog, fun ticker tie due => ?tie⟩
  case ticker =>
    obtain ⟨t, run, kept⟩ := exec_drawn_keeps_agenda .ptick s
    exact ⟨t, (fires (dueTimer_of_ticker_earlier ticker due earlier)).trans run, kept, run⟩
  case watchdog =>
    obtain ⟨t, run, kept⟩ := exec_drawn_keeps_agenda .pwdog s
    exact ⟨t, (fires (dueTimer_of_watchdog_earlier watchdog due earlier)).trans run, kept, run⟩
  case tie =>
    have chosen := fires (dueTimer_of_tie ticker watchdog tie due)
    split at chosen
    · exact .inl chosen
    · exact .inr chosen

/-! ### The one refusal (R280, U12) -/

/-- A step ends in a next state, unless the entry first on the agenda is no command of R81. -/
theorem step_completes_or_refuses (s : State) :
    (∃ t, step s = .next t) ∨
      ∃ bytes rest why, s.agenda = .command bytes :: rest ∧ fetchCommand bytes = .malformed why ∧
        step s = .refused (.malformedCommand why) := by
  match agenda : s.agenda with
  | [] => exact .inl ⟨s, step_of_idle agenda⟩
  | .ticker :: rest => exact .inl (step_of_ticker agenda ▸ exec_completes _ _)
  | .watchdog :: rest => exact .inl (step_of_watchdog agenda ▸ exec_completes _ _)
  | .command bytes :: rest =>
    cases fetched : fetchCommand bytes with
    | malformed why => exact .inr ⟨bytes, rest, why, rfl, fetched, step_of_malformed agenda fetched⟩
    | illegal => exact .inl ⟨_, step_of_illegal agenda fetched⟩
    | run i =>
      cases due : dueTimer (operandNow s.params i) s with
      | some timer => exact .inl (step_of_due_timer agenda fetched due ▸ exec_completes _ _)
      | none => exact .inl (step_of_no_due_timer agenda fetched due ▸ exec_completes _ _)

/-- Settles O53: there is no fault to raise, and `step_completes_or_refuses` leaves one refusal, which the command of a
well-formed operation escapes. -/
theorem stepNeverStopsOnACommand : Obligations.StepNeverStopsOnACommand := by
  refine ⟨fun _ => nofun, fun s r refused => ?refusal, fun s i rest wf agenda => ?command⟩
  case refusal =>
    rcases step_completes_or_refuses s with ⟨t, run⟩ | ⟨bytes, rest, why, agenda, fetched, run⟩
    · simp [run] at refused
    · exact ⟨bytes, rest, why, agenda, fetched, by simpa [run] using refused.symm⟩
  case command =>
    rcases step_completes_or_refuses s with completes | ⟨bytes, rest', why, agenda', fetched, -⟩
    · exact completes
    · obtain ⟨rfl, -⟩ : encode i = bytes ∧ rest = rest' := by simpa [agenda] using agenda'
      exact absurd fetched (fetchCommand_encode_ne_malformed wf why)

end Sys2Proof.Machine
end

section
/-! PROOFS. Unit SMOOTH, a timer's turn while R243 does not enable its event (log 14): it is no transition of the
registers, so the state stays. -/

namespace Sys2Proof.Machine

theorem pwdog_of_disabled {s : State} (disabled : ¬ wdogEnabled s = true) : exec .pwdog s = .next s := if_neg disabled

/-- Settles O43: the two premises are the negations of what enables PTICK and PWDOG (`tickEnabled_iff`,
`wdogEnabled_iff`). -/
theorem disabledTimersDoNothing : Obligations.DisabledTimersDoNothing := by
  refine fun s => ⟨fun notDue => ?ticker, fun notDue => ?watchdog⟩
  case ticker => exact ptick_of_disabled (mt (tickEnabled_iff s).1 notDue)
  case watchdog => exact pwdog_of_disabled (mt (wdogEnabled_iff s).1 notDue)

end Sys2Proof.Machine
end
